-- ==== Sys2Proof/Word.lean ====
section
/-! DEFINITION. Word.lean: the 32-bit register word of LH-96 (R2) and its plainest arithmetic: bit fields, and the
bytes of a word in the order the manual prints them ([31:24] first). -/

namespace Sys2Proof

/-- A register is 32 bits wide (R2). -/
abbrev Word := BitVec 32

/-- A byte of a value, a frame or a buffer. -/
abbrev Byte := BitVec 8

namespace Word

/-- Field `[msb:lsb]` of a word, as a number. -/
def fld (w : Word) (msb lsb : Nat) : Nat := (w.toNat >>> lsb) % 2 ^ (msb + 1 - lsb)

/-- Bit `n` of a word. -/
def bit (w : Word) (n : Nat) : Bool := w.getLsbD n

/-- The word with ones exactly in `[msb:lsb]`. -/
def mask (msb lsb : Nat) : Word := BitVec.ofNat 32 ((2 ^ (msb + 1 - lsb) - 1) <<< lsb)

/-- The number `v` placed in field `[msb:lsb]` of an otherwise zero word; bits of `v` beyond the field are dropped. -/
def place (msb lsb v : Nat) : Word := BitVec.ofNat 32 ((v % 2 ^ (msb + 1 - lsb)) <<< lsb)

/-- `w` with field `[msb:lsb]` replaced by `v`. -/
def setFld (w : Word) (msb lsb v : Nat) : Word := (w &&& ~~~ mask msb lsb) ||| place msb lsb v

/-- `w` with bit `n` set to `b`. -/
def setBit (w : Word) (n : Nat) (b : Bool) : Word := setFld w n n (if b then 1 else 0)

/-- The four bytes of a word, [31:24] first. -/
def bytes (w : Word) : List Byte :=
  [w.extractLsb' 24 8, w.extractLsb' 16 8, w.extractLsb' 8 8, w.extractLsb' 0 8]

/-- The signed reading of a word. -/
def signed (w : Word) : Int := w.toInt

end Word

/-- `n` as `k` bytes, most significant first (the manual's wire byte order, Table 0.1). -/
def beBytes : Nat → Nat → List Byte
  | 0, _ => []
  | k + 1, n => BitVec.ofNat 8 (n >>> (8 * k)) :: beBytes k n

/-- The number a big-endian byte string spells. -/
def beNat (bs : List Byte) : Nat := bs.foldl (fun a b => a * 256 + b.toNat) 0

end Sys2Proof
end

