-- ==== Sys2Proof/Machine/Maps.lean ====
section
/-! DEFINITION. Machine/Maps.lean: the one sparse store the model uses: a list of (key, value) pairs in ONE canonical
form, keys strictly rising, and no entry equal to what an unlisted key reads as. Registers, counters, shadows and every
table indexed by a number are kept so; equal contents are then equal data. -/

namespace Sys2Proof.Machine

/-- A sparse store keyed by number. -/
abbrev Store (α : Type) := List (Nat × α)

/-- The entry of key `k`, if one is listed. -/
def storeFind {α : Type} : Store α → Nat → Option α
  | [], _ => none
  | (j, v) :: m, k => if j = k then some v else storeFind m k

/-- What key `k` reads as, an unlisted key reading as `d`. -/
def storeLook {α : Type} (m : Store α) (k : Nat) (d : α) : α := (storeFind m k).getD d

/-- The store with key `k` no longer listed. -/
def storeErase {α : Type} (m : Store α) (k : Nat) : Store α := m.filter fun e => decide (e.1 ≠ k)

/-- The store with `v` listed at key `k`, in key order. -/
def storeInsert {α : Type} : Store α → Nat → α → Store α
  | [], k, v => [(k, v)]
  | (j, u) :: m, k, v =>
    if k < j then (k, v) :: (j, u) :: m
    else if k = j then (k, v) :: m
    else (j, u) :: storeInsert m k v

/-- Write `v` at key `k` of a store whose unlisted keys read as `d`: the entry is dropped when it says no more than that. -/
def storePut {α : Type} [DecidableEq α] (m : Store α) (k : Nat) (d v : α) : Store α :=
  if v = d then storeErase m k else storeInsert m k v

/-- The keys rise strictly. -/
def storeRising {α : Type} : Store α → Bool
  | [] => true
  | [_] => true
  | (j, _) :: (k, v) :: m => decide (j < k) && storeRising ((k, v) :: m)

/-- The canonical form of a store whose key `k` reads as `d k` when it is not listed. -/
def storeCanonical {α : Type} [DecidableEq α] (d : Nat → α) (m : Store α) : Bool :=
  storeRising m && m.all fun e => decide (e.2 ≠ d e.1)

/-- The listed keys. -/
def storeKeys {α : Type} (m : Store α) : List Nat := m.map Prod.fst

/-- Apply `f` to the entry of key `k` (to `d` when it is not listed). -/
def storeModify {α : Type} [DecidableEq α] (m : Store α) (k : Nat) (d : α) (f : α → α) : Store α :=
  storePut m k d (f (storeLook m k d))

end Sys2Proof.Machine
end

