-- ==== Sys2Proof/Syntax.lean ====
section
/-! DEFINITION. Syntax.lean: the commands of LH-96, one constructor of `Instr` per row of spec/opcode_table.json, with
the operands a command carries; and the records those operands are made of. A command is an access, an event on a pin
or a bus, the end of a time, or the completion of work the block has under way. The block has no encodings: the table
gives no row any bits. -/

namespace Sys2Proof

open Sys2Proof.Machine (Store)

/-- An access path of Table 3.9. -/
inductive Path where
  | fratra | lmf | hkp | tat
  deriving DecidableEq, Repr

/-- Who makes a register access: its path, and what the path does not fix by itself (R62). On the Fratra path the
identity is TC0 and `sec` is the attribute R160 gave the frame; on the TAT path `tenant` and `sec` are the entry's. -/
structure Req where
  path : Path
  tenant : Nat := 0
  sec : Bool := false
  deriving DecidableEq, Repr

/-- A stream's identity (R172). -/
structure StreamId where
  tenant : Nat
  client : BitVec 48
  stream : Nat
  deriving DecidableEq, Repr

/-- How a Fratra frame came, and so how its response goes back (R152, R180, R181). -/
structure Carriage where
  /-- 0 an Ethernet port, 1 LMF, 2 relayed over Accord -/
  kind : Nat
  port : Nat := 0
  src : BitVec 48 := 0
  dst : BitVec 48 := 0
  vid : Nat := 0
  deriving DecidableEq, Repr

/-- What a key holds (R182). -/
inductive Content where
  | value (bytes : List Byte)
  | aliasTo (target : List Byte)
  deriving DecidableEq, Repr

/-- Where a value is laid out (Table 9.4). -/
inductive Layout where
  /-- an alias or a packed value: pack grain and slots -/
  | packed (sheaf grain slot n : Nat)
  /-- whole sheaves, and the tail's pieces as (sheaf, first grain, grains); the descriptor's slot, when it has whole sheaves -/
  | big (whole : List Nat) (tail : List (Nat × Nat × Nat)) (desc : Option (Nat × Nat × Nat))
  /-- not placed on this LH-96 -/
  | none
  deriving DecidableEq, Repr

/-- The state of a key whose data lay on a failed die (R206). -/
inductive Damage where
  | none | lost | healing
  deriving DecidableEq, Repr

/-- One key of a tenant: what the key index holds of it (R182 to R185, R200, R256). -/
structure KeyEntry where
  key : List Byte
  content : Content
  version : Nat
  epoch : Nat := 0
  firstNs : Nat := 0
  lastNs : Nat := 0
  /-- Fleet Time state and step count of the last write (Table 6.4) -/
  lastMode : Nat := 0
  lastStep : Nat := 0
  client : Bool := false
  incident : Bool := false
  damage : Damage := .none
  nameLost : Bool := false
  /-- byte ranges that cannot be read: (first grain, grains) -/
  broken : List (Nat × Nat) := []
  layout : Layout := .none
  deriving DecidableEq, Repr

/-- The parameter page of one LUN, as discovery reads it (R237). -/
structure Part where
  /-- bit k-1 for interface k of Table 9.1 -/
  ifaces : BitVec 3
  /-- 1 TLC, 2 QLC -/
  cell : Nat
  pageKib : Nat
  pages : Nat
  blocks : Nat
  planes : Nat
  /-- spare bytes per 16 KiB of page -/
  spare : Nat
  /-- highest rate, MT/s -/
  maxRate : Nat
  /-- endurance, when the page gives one -/
  rated : Option Nat
  /-- read-retry entries that the part offers (R269) -/
  retries : Nat
  deriving DecidableEq, Repr

/-- What stage NAND and stage DRAM of a BOOT find (R237, R238, R256). -/
structure Population where
  dramGib : Nat
  /-- LUN number ↦ its part and its good blocks -/
  luns : Store (Part × Nat)
  /-- highest rate at which each channel's training succeeds, MT/s (none listed: training fails at every grade) -/
  trains : Store Nat
  /-- SLC-mode write rate of the whole population as measured, MB/s (R306) -/
  hrvRate : Nat
  deriving DecidableEq, Repr

/-- What recovery finds in flash (R313 to R317). -/
structure RecoveryFinding where
  /-- segments of the image that do not decode: the grains (sheaf, grain) they held -/
  segUncorr : List (Nat × Nat)
  /-- in an unclean recovery, the keys whose latest commits are not recovered, with the entry they fall back to -/
  undone : List (Nat × List Byte × Option KeyEntry)
  /-- free blocks that read programmed at margin: (LUN, block) -/
  notClean : List (Nat × Nat)
  /-- free blocks that carry a header: (LUN, block) -/
  headed : List (Nat × Nat)
  /-- free blocks checked -/
  checked : Nat
  /-- duration of stages MAP and TAT, ms -/
  ms : Nat
  deriving DecidableEq, Repr

/-- An image copy as the boot ROM reads it (Tables 4.6 and 4.7). -/
structure ImageRead where
  /-- the read completed without an uncorrectable error -/
  readOk : Bool
  /-- the header and the body -/
  bytes : List Byte
  deriving DecidableEq, Repr

/-- What the PCS reports at link up (R122, R123). -/
structure LinkInfo where
  speed : Nat
  anDone : Bool
  fecLock : Bool
  halfDuplex : Bool
  deriving DecidableEq, Repr

/-- The faults that the PCS reports at link down (R123). -/
structure LinkFault where
  localFault : Bool
  remoteFault : Bool
  deriving DecidableEq, Repr

/-- What the PCS and the FEC report of a frame that ended: a code error in it, and the codewords corrected and left
uncorrected since the frame before (R128, R146). -/
structure LineReport where
  codeErr : Bool
  fecCorr : Nat
  fecUncorr : Nat
  deriving DecidableEq, Repr

/-- A frame that the HKP hands to a port's PTP or management path (R142, R144). -/
structure TxOffer where
  /-- PTP path (true) or management path -/
  ptp : Bool
  bytes : List Byte
  fcsPass : Bool
  /-- 0 none, 1 two-step stamp request, 2 one-step Sync, 3 one-step Pdelay_Resp -/
  stamp : Nat
  rxNs : Nat
  deriving DecidableEq, Repr

/-- A completed codeword read (R269). -/
structure CwRead where
  lun : Nat
  /-- a journal block by its good-block number (R271), else a data block -/
  journal : Bool
  block : Nat
  /-- the grain position within the block -/
  pos : Nat
  /-- the step of the whole ladder that decodes it, 1 to 4; 0 none -/
  step : Nat
  /-- read-retry entry that decodes it at step 2 -/
  entry : Nat
  bits : Nat
  /-- the read was the patrol's -/
  patrol : Bool
  /-- the tenant whose operation it was for -/
  tenant : Option Nat
  /-- (tenant, key) of the name records that the codeword holds (R271, R285) -/
  names : List (Nat × List Byte)
  deriving DecidableEq, Repr

/-- The region of an uncorrectable DRAM error (Table 9.7). -/
inductive UeRegion where
  /-- write buffer: the grains whose dirty bytes the error covers -/
  | writeBuffer (grains : List (Nat × Nat))
  | index
  | work
  | cache
  deriving DecidableEq, Repr

/-- A TS1 ordered set (Table 12.3), with what the lane's receiver found. -/
structure Ts1 where
  lane : Nat
  rate : Nat
  preset : Nat
  request : Nat
  eqDone : Bool
  /-- the lane has had block lock for 1 µs -/
  locked : Bool
  eyeH : Nat
  eyeV : Nat
  deriving DecidableEq, Repr

/-- HELLO_A, HELLO_B and HELLO_C (Table 12.3). -/
structure Hello where
  rank : Nat
  holdsKeys : Bool
  knowsYou : Bool
  adopt : Bool
  adoptSrc : Bool
  /-- the twin holds a partner serial that names a third device (Table 12.1) -/
  third : Bool
  epoch : Nat
  maxWidth : Nat
  serial : BitVec 64
  good : BitVec 4
  deriving DecidableEq, Repr

/-- The payload of a LINK flit (Table 12.6). -/
structure LinkFlit where
  ack : Nat
  nak : Bool
  hb : Bool
  retrain : Bool
  widthReq : Bool
  echo : Bool
  widthWanted : Nat
  nakFseq : Nat
  credits : List Nat
  hbSeq : Nat
  ns : Nat
  epoch : Nat
  poolFree : Nat
  /-- what the receivers of the lanes counted since the LINK flit before it: invalid sync headers, and SKP blocks added or removed
  (R359); no part of the payload -/
  blockErr : List Nat := []
  skpAdj : List Nat := []
  deriving DecidableEq, Repr

/-- A mirrored operation (Table 12.8), its value whole. -/
structure MirrorOp where
  opcode : Nat
  key : List Byte
  version : Nat
  /-- OPTIONS [3] HOLD, [5] INCIDENT, [6] TIMED, [4] LATE_SKIP -/
  options : Word
  value : List Byte
  /-- OFFSET of an APPEND: the old length -/
  offset : Nat := 0
  /-- T of a staged swap in ns, with its identifier and the lead's pool entry -/
  swap : Option (Nat × Nat × Nat) := none
  /-- the carriage of the original frame, as the prefix keeps it (R181) -/
  carriage : Carriage := { kind := 0 }
  deriving DecidableEq, Repr

/-- A KEY_REQ message (Table 12.7). -/
structure KeyReq where
  tenant : Nat
  nameLost : Bool
  key : List Byte
  version : Nat
  ranges : List (Nat × Nat)
  deriving DecidableEq, Repr

/-- A KEY_DATA message (Table 12.7). -/
structure KeyData where
  tenant : Nat
  epoch : Nat
  present : Bool
  deleted : Bool
  absent : Bool
  lost : Bool
  key : List Byte
  version : Nat
  content : Content
  deriving DecidableEq, Repr

/-- One entry of a DIV_LIST message (Table 12.7). -/
structure DivItem where
  key : List Byte
  version : Nat
  epoch : Nat
  deleted : Bool
  deriving DecidableEq, Repr

/-- A frame that reaches the HKP as a twin heartbeat (R349): its port, and its bytes from the destination address on, FCS left
out. -/
structure EthBeat where
  port : Nat
  frame : List Byte
  deriving DecidableEq, Repr

/-- What the bus answered to an I2C step (R395 to R398). -/
inductive I2cOutcome where
  | ok (bytes : List Byte)
  | nak (acked : Nat)
  | arbLost
  /-- STRETCH_VIOLATION (R398) -/
  | stretch
  deriving DecidableEq, Repr

/-- What the AON SRAM returned for a record to be moved (R361). -/
inductive SramRead where
  | good | corrected | bad
  deriving DecidableEq, Repr

/-- A UART character as its line was sampled (R404): samples 7, 8 and 9 of each data bit and of the parity bit it may have, in the
order received, and sample 8 of the first stop bit. -/
structure UartChar where
  samples : List (BitVec 3)
  stop : Bool
  deriving DecidableEq, Repr

/-- A change of an acquisition input (Table 15.1, R422): the pin, its new level, and the phase of its tag in the tick. -/
structure TagChange where
  /-- 0 to 31 GPI0 to GPI31, 32 and 33 TRIG_IN0 and TRIG_IN1, 34 TSYNC_IN -/
  pin : Nat
  level : Bool
  phase : Nat
  deriving DecidableEq, Repr

/-- A packet received on EP1 OUT (Table 17.8): its header fields as they came, and the payload of the transfer. -/
structure LmfFrame where
  lseq : Nat
  /-- header byte 2: BURST in [2:0]; the other bits are 0 from the host -/
  byte2 : Byte
  kind : Nat
  length : Nat
  ack : Nat
  bytes : List Byte
  deriving DecidableEq, Repr

/-- A vendor request's SETUP packet (Table 17.4). -/
structure Setup where
  reqType : Byte
  request : Byte
  value : BitVec 16
  index : BitVec 16
  length : Nat
  deriving DecidableEq, Repr
/-- The commands, in the order of spec/opcode_table.json, each with the rule that governs it. -/
inductive Instr where
  /-- AON_POWER_ON_RESET (R94). -/
  | aonPowerOnReset (byPin : Bool)
  /-- AON_POR_RELEASE (R94). -/
  | aonPorRelease (straps : BitVec 5)
  /-- POWER_UP (R96). -/
  | powerUp
  /-- PGOOD_CORE_RISE (R96). -/
  | pgoodCoreRise
  /-- PGOOD_TIMEOUT (R96). -/
  | pgoodTimeout
  /-- RETRY_WAIT_END (R96). -/
  | retryWaitEnd
  /-- PGOOD_STUCK (R97). -/
  | pgoodStuck
  /-- CORE_RESET_RELEASE (R96). -/
  | coreResetRelease
  /-- REF_LOSS (R25). -/
  | refLoss
  /-- REFCLK_RETURN (R25). -/
  | refclkReturn
  /-- PLL_RELOCK (R25). -/
  | pllRelock (core : Bool)
  /-- PGOOD_CORE_LOSS (R98). -/
  | pgoodCoreLoss
  /-- POWER_FAIL_TRIP (R298). -/
  | powerFailTrip
  /-- GLITCH (R299). -/
  | glitch
  /-- HARVEST_LUN_DROP (R303). -/
  | harvestLunDrop (lun : Nat)
  /-- HARVEST_PROG_FAIL (R303). -/
  | harvestProgFail (lun : Nat)
  /-- HARVEST_DONE (R300). -/
  | harvestDone (vEnd durUs : Nat)
  /-- PARK (R112). -/
  | park (by_ : Req) (value : Word)
  /-- SETTLE_DRAIN_LIMIT (R113). -/
  | settleDrainLimit
  /-- SETTLE_COMPLETE (R113). -/
  | settleComplete (slow : Bool)
  /-- RESET_N_ASSERT (R100). -/
  | resetNAssert
  /-- RESET_N_RELEASE (R100). -/
  | resetNRelease (straps : BitVec 5)
  /-- WARM (R100). -/
  | warm (by_ : Req) (value : Word)
  /-- WDT_KICK (R117). -/
  | wdtKick (by_ : Req) (value : Word)
  /-- WDT_WARN (R117). -/
  | wdtWarn
  /-- WDT_EXPIRE (R117). -/
  | wdtExpire
  /-- IMAGE_VERIFY (R107). -/
  | imageVerify (image : ImageRead)
  /-- POPULATION_DISCOVERY (R237). -/
  | populationDiscovery (pop : Population)
  /-- RECOVERY (R314). -/
  | recovery (found : RecoveryFinding)
  /-- RUN_ENTRY (R111). -/
  | runEntry
  /-- LATENESS_PASS (R53). -/
  | latenessPass
  /-- STEP (R28). -/
  | step (by_ : Req) (value : Word)
  /-- SET (R28). -/
  | set (by_ : Req) (value : Word)
  /-- STATE_LOAD (R30). -/
  | stateLoad (by_ : Req) (value : Word)
  /-- FT_RD_NS (R29). -/
  | ftRdNs (by_ : Req)
  /-- FT_SECOND (R40). -/
  | ftSecond
  /-- TSYNC_IN_EDGE (R35). -/
  | tsyncInEdge (phase : Nat)
  /-- TSYNC_OUT_PULSE (R37). -/
  | tsyncOutPulse
  /-- TSYNC_OUT_END (R37). -/
  | tsyncOutEnd
  /-- SYNC_TIMEOUT (R34). -/
  | syncTimeout
  /-- CORR_RING_READ (R41). -/
  | corrRingRead (by_ : Req) (entry : Nat)
  /-- TAGGER_RECALIBRATE (R39). -/
  | taggerRecalibrate (temp : Int)
  /-- TAGGER_RECAL_DONE (R39). -/
  | taggerRecalDone
  /-- TAT_FIRE (R44). -/
  | tatFire
  /-- AON_ACTION_ARRIVAL (R47). -/
  | aonActionArrival
  /-- INTERVAL_CLOSE (R377). -/
  | intervalClose
  /-- READ (R48). -/
  | read (by_ : Req) (value : Word)
  /-- WRITE (R48). -/
  | write (by_ : Req) (value : Word)
  /-- CANCEL (R48). -/
  | cancel (by_ : Req) (value : Word)
  /-- TAT_CFG (R50). -/
  | tatCfg (by_ : Req) (value : Word)
  /-- REGISTER_WRITE (R65). -/
  | registerWrite (by_ : Req) (address : Nat) (value : Word)
  /-- ERR_CODE_READ (R3). -/
  | errCodeRead (by_ : Req) (page : Nat)
  /-- COUNTER_READ (R76). -/
  | counterRead (by_ : Req) (address : Nat)
  /-- IRQ_FLAG (R73). -/
  | irqFlag (by_ : Req) (page : Nat) (value : Word)
  /-- IRQ_FORCE (R61). -/
  | irqForce (by_ : Req) (page : Nat) (value : Word)
  /-- IRQ_EN (R81). -/
  | irqEn (by_ : Req) (page : Nat) (value : Word)
  /-- COAL_TIMER_EXPIRE (R81). -/
  | coalTimerExpire (page dest : Nat)
  /-- PAGE_OWNER (R66). -/
  | pageOwner (by_ : Req) (page : Nat) (value : Word)
  /-- SOFT_RST (R78). -/
  | softRst (by_ : Req) (page : Nat) (value : Word)
  /-- SOFT_RST_DONE (R78). -/
  | softRstDone (page : Nat)
  /-- PAGE_CTRL_EN (R80). -/
  | pageCtrlEn (by_ : Req) (page : Nat) (value : Word)
  /-- LOAD (R87). -/
  | load (by_ : Req) (value : Word)
  /-- GENERATE (R87). -/
  | generate (by_ : Req) (value : Word)
  /-- ZEROIZE (R87). -/
  | zeroize (by_ : Req) (value : Word)
  /-- CHECK (R87). -/
  | check_ (by_ : Req) (value : Word)
  /-- KEY_DONE (R87). -/
  | keyDone (rngFault : Bool)
  /-- GO (R90). -/
  | go (by_ : Req) (value : Word)
  /-- SESS_NONCE_READ (R89). -/
  | sessNonceRead (by_ : Req)
  /-- SESS_OPEN (R89). -/
  | sessOpen (by_ : Req) (value : Word)
  /-- SESS_CLOSE (R89). -/
  | sessClose (by_ : Req) (value : Word)
  /-- SESS_IDLE_TIMEOUT (R89). -/
  | sessIdleTimeout
  /-- LOCKOUT_END (R89). -/
  | lockoutEnd
  /-- PORT_CFG (R121). -/
  | portCfg (by_ : Req) (port : Nat) (value : Word)
  /-- LINK_UP (R123). -/
  | linkUp (port : Nat) (info : LinkInfo)
  /-- LINK_DOWN (R123). -/
  | linkDown (port : Nat) (fault : LinkFault) (received : List Byte)
  /-- RX_FRAME_START (R138). -/
  | rxFrameStart (port : Nat) (head : List Byte)
  /-- RX_FRAME_END (R131). -/
  | rxFrameEnd (port : Nat) (rest : List Byte) (line : LineReport)
  /-- PAUSE (R140). -/
  | pause (port time : Nat)
  /-- PFC (R140). -/
  | pfc (port : Nat) (classes : BitVec 8) (times : List Nat)
  /-- PAUSE_EXPIRE (R140). -/
  | pauseExpire (port : Nat) (prio : Option Nat)
  /-- PAUSE_REFRESH (R141). -/
  | pauseRefresh (port : Nat)
  /-- TX_FRAME_DONE (R142). -/
  | txFrameDone (port : Nat) (offered : List TxOffer)
  /-- TX_TS_NS (R144). -/
  | txTsNs (by_ : Req) (port : Nat)
  /-- SAVE (R148). -/
  | save (by_ : Req) (value : Word)
  /-- SAVE_DONE (R148). -/
  | saveDone (journaled : Bool)
  /-- ARRIVAL (R162). -/
  | arrival
  /-- PROGRESS_RESPONSE (R178). -/
  | progressResponse (stream : StreamId)
  /-- STREAM_IDLE (R173). -/
  | streamIdle (stream : StreamId)
  /-- GET (R188). -/
  | get (op : Nat)
  /-- GET_RANGE (R188). -/
  | getRange (op : Nat)
  /-- PUT (R188). -/
  | put (op : Nat)
  /-- PUT_IF_ABSENT (R188). -/
  | putIfAbsent (op : Nat)
  /-- APPEND (R248). -/
  | append (op : Nat)
  /-- CAS (R188). -/
  | cas (op : Nat)
  /-- DELETE (R188). -/
  | delete (op : Nat)
  /-- HOLD (R200). -/
  | hold (op : Nat)
  /-- RELEASE (R200). -/
  | release (op : Nat)
  /-- ALIAS_SET (R188). -/
  | aliasSet (op : Nat)
  /-- ALIAS_SWAP_AT (R194). -/
  | aliasSwapAt (op : Nat)
  /-- SCAN (R202). -/
  | scan (op : Nat)
  /-- STAT (R188). -/
  | stat (op : Nat)
  /-- FLUSH (R191). -/
  | flush (op : Nat)
  /-- REG_ACCESS (R166). -/
  | regAccess (op : Nat)
  /-- MAILBOX (R479). -/
  | mailbox (op : Nat)
  /-- INCIDENT_EVENT (R201). -/
  | incidentEvent
  /-- INC_CLOSE (R201). -/
  | incClose
  /-- TEN_CFG (R214). -/
  | tenCfg (by_ : Req) (tenant : Nat) (value : Word)
  /-- TEN_BIND (R215). -/
  | tenBind (by_ : Req) (tenant : Nat) (value : Word)
  /-- RESET (R228). -/
  | reset (by_ : Req) (tenant : Nat) (value : Word)
  /-- RESET_DONE (R228). -/
  | resetDone (tenant : Nat)
  /-- PURGE (R232). -/
  | purge (by_ : Req) (tenant : Nat) (value : Word)
  /-- PURGE_DONE (R232). -/
  | purgeDone (tenant : Nat)
  /-- WRITE_BACK (R253). -/
  | writeBack (sheaf : Nat)
  /-- PROGRAM_DONE (R278). -/
  | programDone (prog : Nat)
  /-- PROGRAM_FAIL (R278). -/
  | programFail (prog : Nat)
  /-- ERASE_DONE (R312). -/
  | eraseDone (lun block : Nat)
  /-- ERASE_FAIL (R279). -/
  | eraseFail (lun block : Nat)
  /-- CODEWORD_READ (R269). -/
  | codewordRead (cw : CwRead)
  /-- FOLD (R251). -/
  | fold (sheaf : Nat)
  /-- GLEANING (R262). -/
  | gleaning (lun : Nat)
  /-- REFRESH (R273). -/
  | refresh (lun : Nat)
  /-- WEAR_MOVE (R277). -/
  | wearMove (lun : Nat)
  /-- SWITCH (R263). -/
  | switch (lun : Nat)
  /-- GLEAN_CFG (R260). -/
  | gleanCfg (by_ : Req) (value : Word)
  /-- NCH_RETRAIN (R239). -/
  | nchRetrain (by_ : Req) (chan : Nat) (value : Word)
  /-- RETRAIN_DONE (R239). -/
  | retrainDone (chan : Nat) (rate : Option Nat)
  /-- DRAM_UNCORRECTABLE (R258). -/
  | dramUncorrectable (addr64 : Nat) (region : UeRegion)
  /-- REBUILD_DONE (R258). -/
  | rebuildDone
  /-- PATROL_DONE (R275). -/
  | patrolDone
  /-- COMMAND_TIMEOUT (R282). -/
  | commandTimeout (lun : Nat)
  /-- LUN_CMD (R282). -/
  | lunCmd (by_ : Req) (value : Word)
  /-- IDENT_DONE (R286). -/
  | identDone
  /-- TEMP_SAMPLE (R295). -/
  | tempSample (celsius : Int)
  /-- BANK_CHECK (R308). -/
  | bankCheck (millivolts : Nat)
  /-- BANK_MEASURE (R308). -/
  | bankMeasure (ticks : Nat)
  /-- TS1 (R327). -/
  | ts1 (set : Ts1)
  /-- TS2 (R327). -/
  | ts2 (lane : Nat) (good : BitVec 4) (skew : Nat)
  /-- HELLO (R324). -/
  | hello (set : Hello)
  /-- WIDTH (R327). -/
  | width (width : Nat) (lanes : BitVec 4)
  /-- TRAIN_LIMIT (R327). -/
  | trainLimit
  /-- RATE_DWELL (R329). -/
  | rateDwell
  /-- LINK_FLIT (R335). -/
  | linkFlit (flit : LinkFlit)
  /-- LINK_FLIT_SEND (R335). -/
  | linkFlitSend (heartbeat : Bool)
  /-- REPLAY_TIMEOUT (R336). -/
  | replayTimeout
  /-- LOCK_LOST (R331). -/
  | lockLost (lane : Nat)
  /-- AUTO_WIDEN (R331). -/
  | autoWiden
  /-- ACD_RETRAIN (R331). -/
  | acdRetrain (by_ : Req) (value : Word)
  /-- WIDTH_SET (R331). -/
  | widthSet (by_ : Req) (value : Word)
  /-- ADOPT (R324). -/
  | adopt (by_ : Req) (value : Word)
  /-- TAKEOVER (R353). -/
  | takeover (by_ : Req) (value : Word)
  /-- FORGET (R324). -/
  | forget (by_ : Req) (value : Word)
  /-- HB_MISS (R347). -/
  | hbMiss
  /-- RETRAIN_GRACE_EXPIRE (R348). -/
  | retrainGraceExpire
  /-- MIRROR (R342). -/
  | mirror (tenant mseq : Nat) (op : MirrorOp)
  /-- MIRROR_ACK (R344). -/
  | mirrorAck (tenant mseq version : Nat)
  /-- LEAD_MAP (R340). -/
  | leadMap (map : List Byte)
  /-- NOTICE (R352). -/
  | notice (kind epoch ns : Nat)
  /-- INCIDENT (R345). -/
  | incident (tenant ns : Nat)
  /-- PORT_MACS (R346). -/
  | portMacs (macs : List (BitVec 48)) (links : BitVec 4)
  /-- RELAY (R346). -/
  | relay (carriage : Carriage) (part : List Byte)
  /-- KEY_REQ (R287). -/
  | keyReq (ask : KeyReq)
  /-- KEY_DATA (R287). -/
  | keyData (data : KeyData)
  /-- DIV_LIST (R355). -/
  | divList (tenant : Nat) (full : Bool) (entries : List DivItem)
  /-- DIV_END (R355). -/
  | divEnd (tenant count : Nat)
  /-- TWIN_HEARTBEAT_SEND (R349). -/
  | twinHeartbeatSend
  /-- TWIN_HEARTBEAT (R349). -/
  | twinHeartbeat (beat : EthBeat)
  /-- ETH_PATH_DOWN (R349). -/
  | ethPathDown
  /-- JOIN_WAIT_EXPIRE (R350). -/
  | joinWaitExpire
  /-- TICK_LO (R362). -/
  | tickLo (by_ : Req)
  /-- ALM_CMP_HI (R364). -/
  | almCmpHi (by_ : Req) (alarm : Nat) (value : Word)
  /-- ALM_CMP_LO (R364). -/
  | almCmpLo (by_ : Req) (alarm : Nat) (value : Word)
  /-- ALARM (R363). -/
  | alarm (alarm : Nat)
  /-- TASK_DUE (R365). -/
  | taskDue (task : Nat)
  /-- NOP (R367). -/
  | nop
  /-- I2C_WR (R395). -/
  | i2cWr (outcome : I2cOutcome)
  /-- I2C_RD (R395). -/
  | i2cRd (outcome : I2cOutcome)
  /-- I2C_REGRD (R396). -/
  | i2cRegrd (outcome : I2cOutcome)
  /-- UART_TX (R409). -/
  | uartTx
  /-- UART_RX (R407). -/
  | uartRx
  /-- UART_MATCH (R408). -/
  | uartMatch
  /-- ADC (R411). -/
  | adc
  /-- GPI_RD (R367). -/
  | gpiRd
  /-- WAIT (R367). -/
  | wait
  /-- BRANCH (R368). -/
  | branch
  /-- FIELD (R368). -/
  | field_
  /-- UART_STEP_TIMEOUT (R407). -/
  | uartStepTimeout
  /-- DEBOUNCED_EDGE (R413). -/
  | debouncedEdge (edges : List (Nat × Bool))
  /-- SEQ_TIMEOUT (R373). -/
  | seqTimeout (rec : Nat)
  /-- BATCH_CLOSE (R378). -/
  | batchClose (stream : Nat)
  /-- BATCH_MOVE (R380). -/
  | batchMove (sram : SramRead)
  /-- MOVE_RETRY (R380). -/
  | moveRetry
  /-- WAKE_IN (R383). -/
  | wakeIn
  /-- HOST_WAKE_PULSE_END (R384). -/
  | hostWakePulseEnd
  /-- HOST_WAKE_RELEASE (R384). -/
  | hostWakeRelease (by_ : Req) (value : Word)
  /-- SILLAGE_MOVE (R386). -/
  | sillageMove (sram : SramRead)
  /-- ALERT (R399). -/
  | alert (bus : Nat)
  /-- ALERT_READ (R399). -/
  | alertRead (bus : Nat) (answer : I2cOutcome) (still : Bool)
  /-- ALERT_RETRY (R399). -/
  | alertRetry (bus : Nat)
  /-- ARB_RETRY (R397). -/
  | arbRetry
  /-- BUS_STUCK (R400). -/
  | busStuck (bus : Nat) (sclHigh sdaHigh : Bool)
  /-- PWR_CYCLE_END (R401). -/
  | pwrCycleEnd (rail : Nat)
  /-- RAIL_SETTLE_END (R401). -/
  | railSettleEnd (rail : Nat) (linesHigh : BitVec 4)
  /-- CLR_STUCK (R401). -/
  | clrStuck (by_ : Req) (bus : Nat) (value : Word)
  /-- RAIL_CTRL (R401). -/
  | railCtrl (by_ : Req) (value : Word)
  /-- CHARACTER_RECEIVED (R404). -/
  | characterReceived (uart : Nat) (char : UartChar)
  /-- FRAME_IDLE (R408). -/
  | frameIdle (uart : Nat)
  /-- RX_FLUSH (R407). -/
  | rxFlush (by_ : Req) (uart : Nat) (value : Word)
  /-- CONVERSION (R411). -/
  | conversion (code : Nat)
  /-- SEQUENCE_START (R412). -/
  | sequenceStart (seq : Nat)
  /-- GPO_PULSE_END (R414). -/
  | gpoPulseEnd (gpo : Nat)
  /-- ARM (R425). -/
  | arm (by_ : Req) (value : Word)
  /-- AQE_ARM (R425). -/
  | aqeArm
  /-- FORCE (R427). -/
  | force (by_ : Req) (value : Word)
  /-- STOP (R426). -/
  | stop (by_ : Req) (value : Word)
  /-- TAGGED_CHANGE (R422). -/
  | taggedChange (changes : List TagChange)
  /-- ARM_TIMEOUT (R427). -/
  | armTimeout
  /-- RECORD_END (R429). -/
  | recordEnd
  /-- REARM (R430). -/
  | rearm
  /-- TRIG_OUT_PULSE_END (R431). -/
  | trigOutPulseEnd
  /-- SEG_CMD_FREE (R440). -/
  | segCmdFree (by_ : Req) (value : Word)
  /-- RECORD_MOVE (R441). -/
  | recordMove (sram : SramRead) (word : Nat)
  /-- CH_CFG (R453). -/
  | chCfg (by_ : Req) (ch : Nat) (value : Word)
  /-- FIRE (R454). -/
  | fire (by_ : Req) (ch : Nat) (value : Word)
  /-- OFFER_TAKEN (R448). -/
  | offerTaken (consumer : Nat) (channels : List Nat)
  /-- FCAP_READ (R461). -/
  | fcapRead (by_ : Req) (unit : Nat)
  /-- ACAP_READ (R461). -/
  | acapRead (by_ : Req) (unit : Nat)
  /-- VBUS_VALID (R464). -/
  | vbusValid
  /-- VBUS_INVALID (R464). -/
  | vbusInvalid
  /-- BUS_RESET (R465). -/
  | busReset (highSpeed : Bool)
  /-- FS_FALLBACK (R465). -/
  | fsFallback
  /-- SUSPEND (R471). -/
  | suspend
  /-- RESUME (R471). -/
  | resume
  /-- USB_RESUME_WAKE (R473). -/
  | usbResumeWake
  /-- REMOTE_WAKE (R472). -/
  | remoteWake
  /-- OVERCURRENT (R469). -/
  | overcurrent (port : Nat)
  /-- PORT_POWER (R468). -/
  | portPower (port : Nat) (on : Bool)
  /-- DEVICE_REMOTE_WAKEUP (R472). -/
  | deviceRemoteWakeup (hub on : Bool)
  /-- SET_CONFIGURATION (R472). -/
  | setConfiguration (value : Nat)
  /-- SET_FEATURE_ENDPOINT_HALT (R490). -/
  | setFeatureEndpointHalt (endpoint : Nat)
  /-- CLEAR_FEATURE_ENDPOINT_HALT (R491). -/
  | clearFeatureEndpointHalt (endpoint : Nat)
  /-- REG_READ (R476). -/
  | regRead (setup : Setup)
  /-- REG_WRITE (R477). -/
  | regWrite (setup : Setup) (data : List Word)
  /-- HKP_MAILBOX_OUT (R479). -/
  | hkpMailboxOut (setup : Setup) (message : List Byte)
  /-- HKP_MAILBOX_IN (R482). -/
  | hkpMailboxIn (setup : Setup)
  /-- FW_INFO (R480). -/
  | fwInfo
  /-- IMG_BEGIN (R481). -/
  | imgBegin
  /-- IMG_DATA (R481). -/
  | imgData
  /-- IMG_END (R481). -/
  | imgEnd (programmed readBack : Bool)
  /-- MBOX_DONE (R494). -/
  | mboxDone
  /-- MBOX_TIMEOUT (R483). -/
  | mboxTimeout
  /-- REPLY_DISCARD (R482). -/
  | replyDiscard
  /-- OUT_PACKET (R485). -/
  | outPacket (packet : LmfFrame)
  /-- ACK_DELAY (R486). -/
  | ackDelay
  /-- SEQ_RESET (R487). -/
  | seqReset (by_ : Req) (value : Word)
  /-- AON_PLL_LOCK (R25). -/
  | aonPllLock
  /-- WARM_RESET_HOLD_END (R100). -/
  | warmResetHoldEnd (straps : BitVec 5)
  /-- LAG_HIGH (R344). -/
  | lagHigh (tenant : Nat)
  /-- CRC_ERR (R336). -/
  | crcErr
  /-- PATROL_OVERDUE (R275). -/
  | patrolOverdue
  /-- SCRUB_PASS (R259). -/
  | scrubPass (corrected : Nat)
  /-- TEMP_DERATE (R267). -/
  | tempDerate (raised : Bool)
  /-- START_BIT (R404). -/
  | startBit (uart : Nat) (samples : BitVec 3)
  /-- OC_RELEASE (R469). -/
  | ocRelease (port : Nat)
  deriving DecidableEq, Repr

end Sys2Proof
end

