-- ==== Sys2Proof/Decode.lean ====
section
/-! DEFINITION. Decode.lean: the commands that words spell. spec/opcode_table.json gives no bits to any of its rows (every
row's "fields" is empty): a command reaches the block as an event, an access or a protocol unit with its operands, not as
an encoded word. So no word spells a command. -/

namespace Sys2Proof

/-- One row of a table of encodings: under `mask` the word equals `pattern`, and `read` takes the operands out. -/
structure BitRow where
  nbits : Nat
  mask : Nat
  pattern : Nat
  read : Nat → Instr

/-- The rows of spec/opcode_table.json that give bits: none. -/
def bitRows : List BitRow := []

/-- The command that a word of `nbits` bits spells by the table's bits: none, since no row gives bits. -/
def decodeTableWord (nbits w : Nat) : Option Instr :=
  (bitRows.find? fun r => r.nbits = nbits && Nat.land w r.mask = r.pattern).map fun r => r.read w

end Sys2Proof
end

