-- ==== Sys2Proof/Machine/Hash.lean ====
section
/-! DEFINITION. Machine/Hash.lean: the check sums and the keyed hash that the manual names by their standards: CRC-32 of
IEEE 802.3 (the FCS, R128, R134), CRC-32C (R334), CRC-16/CCITT-FALSE (Table 11.3), SHA-256 and HMAC-SHA-256 (R161, R88). -/

namespace Sys2Proof.Machine

/-- One bit of a reflected CRC. -/
def crcBit (poly c : Word) : Word := if c.getLsbD 0 then (c >>> 1) ^^^ poly else c >>> 1

/-- One byte of a reflected CRC. -/
def crcByte (poly c : Word) (b : Byte) : Word :=
  let c := c ^^^ b.zeroExtend 32
  let c := crcBit poly (crcBit poly (crcBit poly (crcBit poly c)))
  crcBit poly (crcBit poly (crcBit poly (crcBit poly c)))

/-- A reflected CRC with initial value and final XOR of all ones. -/
def crcRefl (poly : Word) (bs : List Byte) : Word := (bs.foldl (crcByte poly) 0xFFFFFFFF) ^^^ 0xFFFFFFFF

/-- CRC-32 of IEEE 802.3. Its bit 0 is the first bit of the FCS on the wire. -/
def crc32 (bs : List Byte) : Word := crcRefl 0xEDB88320 bs

/-- CRC-32C (R334). -/
def crc32c (bs : List Byte) : Word := crcRefl 0x82F63B78 bs

/-- A word as four bytes, least significant first: the FCS as it is sent. -/
def leBytes32 (w : Word) : List Byte :=
  [w.extractLsb' 0 8, w.extractLsb' 8 8, w.extractLsb' 16 8, w.extractLsb' 24 8]

/-- The 32 bits of a word in reverse order. -/
def bitReverse (w : Word) : Word :=
  (List.range 32).foldl (fun r i => if w.getLsbD i then r ||| BitVec.ofNat 32 (2 ^ (31 - i)) else r) 0

/-- One byte of CRC-16/CCITT-FALSE. -/
def crc16Byte (c : BitVec 16) (b : Byte) : BitVec 16 :=
  (List.range 8).foldl (fun c _ => if c.getLsbD 15 then (c <<< 1) ^^^ 0x1021 else c <<< 1)
    (c ^^^ (b.zeroExtend 16 <<< 8))

/-- CRC-16/CCITT-FALSE (Table 11.3). -/
def crc16 (bs : List Byte) : BitVec 16 := bs.foldl crc16Byte 0xFFFF

/-! ## SHA-256 -/

/-- The primes from which SHA-256 takes its constants: the first 64. -/
def shaPrimes : List Nat :=
  [2, 3, 5, 7, 11, 13, 17, 19, 23, 29, 31, 37, 41, 43, 47, 53] ++ [59, 61, 67, 71, 73, 79, 83, 89, 97, 101, 103, 107] ++
  [109, 113, 127, 131, 137, 139, 149, 151, 157, 163, 167, 173, 179, 181, 191, 193, 197, 199, 211, 223] ++
  [227, 229, 233, 239, 241, 251, 257, 263, 269, 271, 277, 281, 283, 293, 307, 311]

/-- The first 32 bits of the fraction of the `k`-th root of `n`, from the highest bit down. -/
def rootFraction (k n : Nat) : Word :=
  BitVec.ofNat 32 ((List.range 37).foldr
    (fun b r => if (r + 2 ^ b) ^ k ≤ n * 2 ^ (32 * k) then r + 2 ^ b else r) 0)

/-- Two or three copies of a word, shifted as the standard's small and large sigma functions take them: rotations by
`rots`, and a shift where `shift` is not 0. -/
def sigma (rots : List Nat) (shift : Nat) (w : Word) : Word :=
  rots.foldl (fun acc n => acc ^^^ w.rotateRight n) (if shift = 0 then 0 else w >>> shift)

/-- The message schedule: each word past the sixteenth from those 2, 7, 15 and 16 before it. The list is kept latest
first. -/
def schedule (block : List Word) : List Word :=
  ((List.range 48).foldl (fun (ws : List Word) _ =>
    (sigma [17, 19] 10 (ws.getD 1 0) + ws.getD 6 0 + sigma [7, 18] 3 (ws.getD 14 0) + ws.getD 15 0) :: ws)
    block.reverse).reverse

/-- One step of the compression on the eight chaining words, with a schedule word plus its round constant. -/
def compress (v : List Word) (kw : Word) : List Word :=
  match v with
  | [a, b, c, d, e, f, g, h] =>
    let choose := g ^^^ (e &&& (f ^^^ g))
    let majority := (a &&& (b ||| c)) ||| (b &&& c)
    let t := h + kw + choose + sigma [6, 11, 25] 0 e
    [t + majority + sigma [2, 13, 22] 0 a, a, b, c, d + t, e, f, g]
  | _ => v

/-- One 16-word block: 64 steps, their result added to the words before. -/
def shaBlock (v : List Word) (block : List Word) : List Word :=
  let steps := List.zipWith (fun w p => w + rootFraction 3 p) (schedule block) shaPrimes
  List.zipWith (· + ·) v (steps.foldl compress v)

/-- Bytes as big-endian words. -/
def toWords : List Byte → List Word
  | a :: b :: c :: d :: t => BitVec.ofNat 32 (beNat [a, b, c, d]) :: toWords t
  | _ => []

/-- Blocks of 16 words, at most `n` of them. -/
def shaBlocks : Nat → List Word → List Word → List Word
  | 0, _, v => v
  | n + 1, ws, v => if ws.isEmpty then v else shaBlocks n (ws.drop 16) (shaBlock v (ws.take 16))

/-- SHA-256: the message is closed with a 1 bit, zeros and its length in bits, and the eight words start as the square
roots of the first eight primes. -/
def sha256 (m : List Byte) : List Byte :=
  let closed := m ++ 0x80 :: List.replicate ((119 - m.length % 64) % 64) 0 ++ beBytes 8 (8 * m.length)
  (shaBlocks (closed.length / 64) (toWords closed) ((shaPrimes.take 8).map (rootFraction 2))).flatMap Word.bytes

/-- HMAC-SHA-256 with a key of at most 64 bytes. -/
def hmac256 (key m : List Byte) : List Byte :=
  let k := key ++ List.replicate (64 - key.length) 0
  sha256 (k.map (· ^^^ 0x5c) ++ sha256 (k.map (· ^^^ 0x36) ++ m))

end Sys2Proof.Machine
end

