-- ==== Sys2Proof/Config.lean ====
section
/-! DEFINITION. Config.lean: what one part fixes (fused values) and the free values: results the manual leaves open.
Each is a constant with no body, so nothing can be proved of its value. -/

namespace Sys2Proof

/-- The fused serial number (SYS SERIAL_HI, SERIAL_LO). -/
opaque Config.serial : BitVec 64

/-- The fused address of port Ek (MAC PORT_MAC). -/
opaque Config.fusedPortMac : Nat → BitVec 48

/-- The fused idVendor of the hub and the LMF (USBH VID). -/
opaque Config.usbVendor : BitVec 16

/-- What the PTP servo measures and chooses, one for each draw of `State.freeCtr`: the path delay that it has measured, ns, and
the FT_ADDEND with which it slews (R34). -/
opaque Config.pathDelay : Nat → BitVec 32
opaque Config.slewAddend : Nat → BitVec 32

/-- The latencies of a port in a mode that the HKP image holds (R143): port and mode ↦ RX_LAT_NS, TX_LAT_NS. -/
opaque Config.portLat : Nat → Nat → BitVec 32

/-- The transmit preset that an Accord lane's receiver would request of the twin at each block, by lane and block: the manual
leaves the search to the receiver (R327). -/
opaque Config.presetWish : Nat → Nat → Nat

/-- The frame number of the host's first start-of-frame packet after it began, or went on, to send them (R467). -/
opaque Config.hostFrame : Nat → BitVec 11

/-- The cursors that SCAN issues, which the manual leaves opaque (R202). -/
opaque Config.scanCursor : Nat → BitVec 64

/-- Words that the manual leaves open where a result is not stated: one for each draw of `State.freeCtr`. -/
opaque Config.freeWord : Nat → BitVec 32

/-- Bytes of an acquisition segment beyond its record, by segment and offset: undefined (R432). -/
opaque Config.segmentByte : Nat → Nat → BitVec 8

/-- The nonces that SESS_NONCE0 draws and the keys that GENERATE makes: random (R87, R89). -/
opaque Config.nonce : Nat → BitVec 128
opaque Config.randomKey : Nat → Nat → BitVec 8

/-- The fused LIFECYCLE, DEBUG_EN and FLOOR of the SEC page (Table 3.16). -/
opaque Config.lifecycle : BitVec 2
opaque Config.debugEn : Bool
opaque Config.versionFloor : BitVec 16

end Sys2Proof
end

