-- ==== Sys2Proof/Machine/RegTable.lean ====
section
/-! DEFINITION. Machine/RegTable.lean: the register window as data: which pages exist (Table 3.1), the block each page
belongs to, its PAGE_CAP, its 64-bit counter pairs, and every register with its fields, access types, reset values and
stated ranges, written from the register tables of the block chapters and the register page index (R534). -/

namespace Sys2Proof.Machine

/-- The blocks of Table 3.1. -/
inductive Block where
  | sys | clk | pwr | rst | time | tat | evf | sec | mac | steer | fwp | kvx | ten | ftl | nch | ecc | hlth
  | dram | hrv | acd | acl | aon | psq | i2c | uart | adc | gpio | recog | bat | aqe | meas | usbh | lmf | hkp
  deriving DecidableEq, Repr

/-- Access types of Table 0.2 (R3). -/
inductive Acc where
  | ro | rw | wo | w1c | sc | rc
  deriving DecidableEq, Repr

/-- One field of a register: its bits, access type, reset value and, where the manual states one, its range `lo..hi`. -/
structure Fld where
  name : String
  msb : Nat
  lsb : Nat
  acc : Acc
  reset : Nat
  range : Option (Nat × Nat)
  deriving DecidableEq, Repr

/-- A field with no stated range. -/
def Fld.f (name : String) (msb lsb : Nat) (acc : Acc) (reset : Nat) : Fld := ⟨name, msb, lsb, acc, reset, none⟩

/-- A field whose values lie in `lo..hi` (R5). -/
def Fld.r (name : String) (msb lsb : Nat) (acc : Acc) (reset lo hi : Nat) : Fld :=
  ⟨name, msb, lsb, acc, reset, some (lo, hi)⟩

/-- One register, or `count` registers of one shape `stride` bytes apart. -/
structure RegRow where
  name : String
  off : Nat
  count : Nat
  stride : Nat
  flds : List Fld
  deriving DecidableEq, Repr

/-- The first page of a block (Table 3.1). -/
def blockPage : Block → Nat
  | .sys => 0x000
  | .clk => 0x001
  | .pwr => 0x002
  | .rst => 0x003
  | .time => 0x004
  | .tat => 0x005
  | .evf => 0x006
  | .sec => 0x007
  | .mac => 0x010
  | .steer => 0x014
  | .fwp => 0x020
  | .kvx => 0x021
  | .ten => 0x040
  | .ftl => 0x080
  | .nch => 0x081
  | .ecc => 0x091
  | .hlth => 0x092
  | .dram => 0x098
  | .hrv => 0x0A0
  | .acd => 0x0B0
  | .acl => 0x0B1
  | .aon => 0x0C0
  | .psq => 0x0C1
  | .i2c => 0x0C2
  | .uart => 0x0C4
  | .adc => 0x0C8
  | .gpio => 0x0C9
  | .recog => 0x0CA
  | .bat => 0x0CB
  | .aqe => 0x0D0
  | .meas => 0x0D1
  | .usbh => 0x0E0
  | .lmf => 0x0E1
  | .hkp => 0x0F0

/-- How many pages a block has (Table 3.1). -/
def blockCount : Block → Nat
  | .mac => 4
  | .ten => 64
  | .nch => 16
  | .acl => 4
  | .i2c => 2
  | .uart => 4
  | .meas => 8
  | _ => 1

/-- Every block, in page order. -/
def allBlocks : List Block :=
  [.sys, .clk, .pwr, .rst, .time, .tat, .evf, .sec, .mac, .steer, .fwp, .kvx, .ten, .ftl, .nch, .ecc, .hlth,
    .dram, .hrv, .acd, .acl, .aon, .psq, .i2c, .uart, .adc, .gpio, .recog, .bat, .aqe, .meas, .usbh, .lmf, .hkp]

/-- The block that owns a page; `none` for a reserved page (R6, R59). -/
def blockOf (page : Nat) : Option Block :=
  allBlocks.find? fun b => decide (blockPage b ≤ page ∧ page < blockPage b + blockCount b)

/-- PAGE_CAP of a block's pages (R20), as each block chapter gives it. -/
def pageCap : Block → Nat
  | .sys => 0x008100F0
  | .clk => 0x01F403E8
  | .pwr => 0x00000304
  | .rst => 0x00000002
  | .time => 0x00000040
  | .tat => 0x00000100
  | .evf => 0x10304060
  | .sec => 0x00044040
  | .mac => 0x20202010
  | .steer => 0x00100100
  | .fwp => 0x40404000
  | .kvx => 0x00801AFF
  | .ten => 0x00040040
  | .ftl => 0x00040810
  | .nch => 0x00240408
  | .ecc => 0x1000020F
  | .hlth => 0x08210200
  | .dram => 0x19002002
  | .hrv => 0x001E0800
  | .acd => 0x10000034
  | .acl => 0x00000B07
  | .aon => 0x00051804
  | .psq => 0x02001080
  | .i2c => 0x00000103
  | .uart => 0x01000C35
  | .adc => 0x00040C08
  | .gpio => 0x00020820
  | .recog => 0x00200820
  | .bat => 0x01007C40
  | .aqe => 0x10000810
  | .meas => 0x000003FE
  | .usbh => 0x00000312
  | .lmf => 0x256E0008
  | .hkp => 0x00001000

/-- The offset of a block's last counter pair (register page index); 0 where the block has none. -/
def lastCounter : Block → Nat
  | .sys => 0x68
  | .clk => 0x50
  | .pwr => 0x48
  | .rst => 0
  | .time => 0x58
  | .tat => 0x58
  | .evf => 0x70
  | .sec => 0x50
  | .mac => 0xf8
  | .steer => 0x40
  | .fwp => 0x98
  | .kvx => 0x80
  | .ten => 0x90
  | .ftl => 0x98
  | .nch => 0x68
  | .ecc => 0x88
  | .hlth => 0x80
  | .dram => 0x70
  | .hrv => 0x78
  | .acd => 0xb0
  | .acl => 0x58
  | .aon => 0x60
  | .psq => 0x60
  | .i2c => 0x78
  | .uart => 0x80
  | .adc => 0x50
  | .gpio => 0x58
  | .recog => 0x60
  | .bat => 0x68
  | .aqe => 0x80
  | .meas => 0x48
  | .usbh => 0x78
  | .lmf => 0x88
  | .hkp => 0x60

/-- A page of the AON island (Table 3.1, R60). -/
def aonBlock : Block → Bool
  | .aon | .psq | .i2c | .uart | .adc | .gpio | .recog | .bat | .aqe | .meas => true
  | _ => false

/-- The common registers of every implemented page (Tables 3.3 to 3.9). -/
def commonRows : List RegRow :=
  [ ⟨"PAGE_ID", 0x000, 1, 4, [.f "TYPE" 31 16 .ro 0, .f "INST" 15 8 .ro 0, .f "LAYOUT" 7 0 .ro 1]⟩,
    ⟨"PAGE_CAP", 0x004, 1, 4, [.f "CAP" 31 0 .ro 0]⟩,
    ⟨"PAGE_OWNER", 0x008, 1, 4, [.f "OWNER" 5 0 .rw 0, .f "SEC" 8 8 .rw 0, .f "LOCK" 15 15 .rw 0]⟩,
    ⟨"PAGE_CTRL", 0x00C, 1, 4, [.f "EN" 0 0 .rw 1, .f "SOFT_RST" 1 1 .sc 0]⟩,
    ⟨"PAGE_STAT", 0x010, 1, 4, [.f "BUSY" 0 0 .ro 0, .f "READY" 1 1 .ro 0, .f "ERR" 2 2 .ro 0,
      .f "IRQ_PEND" 3 3 .ro 0, .f "IN_RESET" 4 4 .ro 0, .f "AON" 5 5 .ro 0]⟩,
    ⟨"IRQ_FLAG", 0x014, 1, 4, [.f "FLAGS" 31 0 .w1c 0]⟩,
    ⟨"IRQ_EN", 0x018, 1, 4, [.f "ENABLES" 31 0 .rw 0]⟩,
    ⟨"IRQ_FORCE", 0x01C, 1, 4, [.f "FORCE" 31 0 .wo 0]⟩,
    ⟨"IRQ_ROUTE", 0x020, 1, 4, [.f "TO_NOTIFY" 0 0 .rw 0, .f "TO_IRQ0" 1 1 .rw 0, .f "TO_IRQ1" 2 2 .rw 0,
      .f "TO_LMF" 3 3 .rw 0, .r "COAL_US" 25 16 .rw 0 0 1000]⟩,
    ⟨"ERR_CODE", 0x024, 1, 4, [.f "CODE" 7 0 .rc 0, .f "WORD" 17 8 .rc 0, .f "TENANT" 23 18 .rc 0, .f "SEC" 24 24 .rc 0,
      .f "PATH" 26 25 .rc 0, .f "READ" 30 30 .rc 0, .f "MORE" 31 31 .rc 0]⟩ ]

/-- Registers of the SYS page (chapter 03). -/
def rowsSys : List RegRow :=
  [ ⟨"DEV_ID", 0x100, 1, 4, [.f "PART" 31 16 .ro 150, .f "STEP" 15 8 .ro 176]⟩,
    ⟨"SERIAL_LO", 0x104, 1, 4, [.f "-" 31 0 .ro 0]⟩,
    ⟨"SERIAL_HI", 0x108, 1, 4, [.f "-" 31 0 .ro 0]⟩,
    ⟨"STRAPS", 0x10C, 1, 4, [.f "TWIN_RANK" 0 0 .ro 0, .f "BOOT_SRC" 2 1 .ro 0, .f "AON_IO_V" 3 3 .ro 0,
      .f "REFCLK_SEL" 4 4 .ro 0]⟩,
    ⟨"SCRATCH", 0x110, 1, 4, [.f "-" 31 0 .rw 0]⟩,
    ⟨"PATH_EN", 0x114, 1, 4, [.f "FRATRA_REG" 0 0 .rw 1, .f "LMF_REG" 1 1 .rw 1, .f "LMF_ANY" 2 2 .rw 1]⟩,
    ⟨"REJ_LAST_ADDR", 0x120, 1, 4, [.f "-" 23 0 .ro 0]⟩,
    ⟨"REJ_LAST_INFO", 0x124, 1, 4, [.f "-" 31 0 .ro 0]⟩,
    ⟨"IRQ_SUM", 0x200, 8, 4, [.f "each" 31 0 .ro 0]⟩ ]

/-- Registers of the CLK page (chapter 02). -/
def rowsClk : List RegRow :=
  [ ⟨"CLK_STAT", 0x100, 1, 4, [.f "CORE_LOCK" 0 0 .ro 0, .f "AON_LOCK" 1 1 .ro 0, .f "REF_PRESENT" 2 2 .ro 0,
      .f "REFCLK_SEL" 4 4 .ro 0]⟩,
    ⟨"CLK_HOLD", 0x104, 1, 4, [.f "FREE_US" 31 0 .ro 0]⟩ ]

/-- Registers of the PWR page (chapter 04). -/
def rowsPwr : List RegRow :=
  [ ⟨"PWR_STATE", 0x100, 1, 4, [.f "STATE" 2 0 .ro 2, .f "SETTLING" 8 8 .ro 0, .f "SETTLE_KIND" 9 9 .ro 0]⟩,
    ⟨"PWR_CMD", 0x104, 1, 4, [.f "PARK" 0 0 .wo 0]⟩,
    ⟨"PWR_CFG", 0x108, 1, 4, [.r "DRAIN_MS" 9 0 .rw 20 1 1000, .r "PGOOD_TMO_MS" 22 16 .rw 20 1 100]⟩,
    ⟨"PWR_SEQ", 0x10C, 1, 4, [.r "RETRY_MS" 15 0 .rw 100 10 10000, .r "RETRIES" 18 16 .rw 3 0 7,
      .r "OFF_MIN_MS" 31 24 .rw 10 1 255]⟩,
    ⟨"PWR_STAT", 0x110, 1, 4, [.f "PGOOD_CORE" 0 0 .ro 0, .f "CORE_PWR_EN" 1 1 .ro 1, .f "RESET_N" 2 2 .ro 0,
      .f "LAST_RETRIES" 11 8 .ro 0, .f "PGOOD_STUCK_SEEN" 12 12 .ro 0, .f "HOLD_FAULT" 13 13 .ro 0]⟩,
    ⟨"LAST_SETTLE_US", 0x114, 1, 4, [.f "-" 31 0 .ro 0]⟩,
    ⟨"SETTLE_DIRTY", 0x118, 1, 4, [.f "-" 31 0 .ro 0]⟩ ]

/-- Registers of the RST page (chapter 04). -/
def rowsRst : List RegRow :=
  [ ⟨"RST_CMD", 0x100, 1, 4, [.f "WARM" 0 0 .wo 0, .f "WDT_KICK" 8 8 .wo 0]⟩,
    ⟨"RST_CAUSE", 0x104, 1, 4, [.f "POR_VDD" 0 0 .ro 0, .f "POR_PIN" 1 1 .ro 0, .f "PARK_WAKE" 2 2 .ro 0,
      .f "WARM_PIN" 3 3 .ro 0, .f "WARM_SW" 4 4 .ro 0, .f "WARM_WDT" 5 5 .ro 0, .f "RETRY" 6 6 .ro 0,
      .f "LAST_DOWN" 9 8 .ro 0, .f "WAKE_SRC" 20 16 .ro 0]⟩,
    ⟨"BOOT_STAGE", 0x108, 1, 4, [.f "STAGE" 3 0 .ro 0, .f "FAIL" 15 8 .ro 0, .f "ELAPSED_MS" 31 16 .ro 0]⟩,
    ⟨"IMAGE_INFO", 0x10C, 1, 4, [.f "COPY" 0 0 .ro 0, .f "ATTEMPTS" 15 8 .ro 0]⟩,
    ⟨"WDT_CFG", 0x110, 1, 4, [.r "WDT_MS" 15 0 .rw 2000 100 60000, .f "WDT_EN" 16 16 .rw 1]⟩ ]

/-- Registers of the TIME page (chapter 02). -/
def rowsTime : List RegRow :=
  [ ⟨"FT_STAT", 0x100, 1, 4, [.f "STATE" 2 0 .ro 0, .f "SEEDED" 3 3 .ro 0, .f "STEP_COUNT" 15 8 .ro 0]⟩,
    ⟨"FT_CMD", 0x104, 1, 4, [.f "STEP" 0 0 .wo 0, .f "SET" 1 1 .wo 0, .f "STATE_LOAD" 2 2 .wo 0,
      .f "NEW_STATE" 6 4 .wo 0]⟩,
    ⟨"FT_ADDEND", 0x108, 1, 4, [.f "-" 31 0 .rw 0]⟩,
    ⟨"FT_RD_NS", 0x110, 1, 4, [.f "-" 31 0 .ro 0]⟩,
    ⟨"FT_RD_SEC_LO", 0x114, 1, 4, [.f "-" 31 0 .ro 0]⟩,
    ⟨"FT_RD_SEC_HI", 0x118, 1, 4, [.f "SEC_HI" 15 0 .ro 0, .f "FRAC" 31 16 .ro 0]⟩,
    ⟨"FT_SET_NS", 0x120, 1, 4, [.r "-" 31 0 .rw 0 0 999999999]⟩,
    ⟨"FT_SET_SEC_LO", 0x124, 1, 4, [.f "-" 31 0 .rw 0]⟩,
    ⟨"FT_SET_SEC_HI", 0x128, 1, 4, [.f "-" 15 0 .rw 0]⟩,
    ⟨"FT_STEP_LO", 0x130, 1, 4, [.f "-" 31 0 .rw 0]⟩,
    ⟨"FT_STEP_HI", 0x134, 1, 4, [.f "-" 31 0 .rw 0]⟩,
    ⟨"PTP_CFG", 0x140, 1, 4, [.f "DOMAIN" 7 0 .rw 0, .f "PROFILE" 8 8 .rw 0, .f "ROLE" 9 9 .rw 0,
      .f "DELAY" 10 10 .rw 0, .f "ONE_STEP" 11 11 .rw 0, .f "PORT_EN" 15 12 .rw 0, .f "PTP_VID" 27 16 .rw 0,
      .f "HOLD_EN" 28 28 .rw 1]⟩,
    ⟨"PTP_THRESH", 0x144, 1, 4, [.f "STEP_THRESH" 15 0 .rw 1000, .r "LOCK_THRESH" 31 16 .rw 100 1 65535]⟩,
    ⟨"PTP_OFFSET", 0x148, 1, 4, [.f "-" 31 0 .ro 0]⟩,
    ⟨"PTP_TIMEOUT", 0x14C, 1, 4, [.r "SYNC_TIMEOUT" 15 0 .rw 3000 100 60000]⟩,
    ⟨"TSYNC_CFG", 0x150, 1, 4, [.f "DISC_EN" 0 0 .rw 0, .r "TSYNC_WINDOW" 15 4 .rw 100 1 4095]⟩,
    ⟨"TSYNC_OFFSET", 0x154, 1, 4, [.f "-" 31 0 .rw 0]⟩,
    ⟨"TSYNC_CAP_NS", 0x158, 1, 4, [.f "-" 31 0 .ro 0]⟩,
    ⟨"TSYNC_CAP_SEC_LO", 0x15C, 1, 4, [.f "-" 31 0 .ro 0]⟩,
    ⟨"TSYNC_CAP_SEC_HI", 0x160, 1, 4, [.f "-" 15 0 .ro 0]⟩,
    ⟨"TSYNC_OUT_CFG", 0x170, 1, 4, [.f "EN" 0 0 .rw 0, .f "GATE" 5 1 .rw 24, .f "PERIOD_MS" 15 6 .rw 1000,
      .r "WIDTH_US" 24 16 .rw 100 1 500]⟩,
    ⟨"TSYNC_OUT_ADV", 0x174, 1, 4, [.r "ADV_NS" 7 0 .rw 0 0 255]⟩,
    ⟨"CORR_CFG", 0x180, 1, 4, [.r "PARK_DIV" 11 0 .rw 10 1 3600]⟩,
    ⟨"CORR_HEAD", 0x184, 1, 4, [.f "NEXT" 5 0 .ro 0, .f "WRAPPED" 8 8 .ro 0]⟩ ] ++
  [ ⟨"CORR_RING", 0x800, 512, 4, [.f "-" 31 0 .ro 0]⟩ ]

/-- Registers of the TAT page (chapter 02). -/
def rowsTat : List RegRow :=
  [ ⟨"TAT_CFG", 0x100, 1, 4, [.f "EN" 0 0 .rw 1, .f "REQUIRE_SYNC" 1 1 .rw 1, .r "POOL_BASE" 15 8 .rw 192 128 255]⟩,
    ⟨"TAT_IDX", 0x104, 1, 4, [.f "-" 7 0 .rw 0]⟩,
    ⟨"TAT_CMD", 0x108, 1, 4, [.f "OP" 1 0 .wo 0, .f "FORCE_PAST" 4 4 .wo 0]⟩,
    ⟨"TE_T_NS", 0x110, 1, 4, [.f "-" 31 0 .rw 0]⟩,
    ⟨"TE_T_SEC_LO", 0x114, 1, 4, [.f "-" 31 0 .rw 0]⟩,
    ⟨"TE_T_SEC_HI", 0x118, 1, 4, [.f "-" 15 0 .rw 0]⟩,
    ⟨"TE_CTRL", 0x11C, 1, 4, [.f "KIND" 2 0 .rw 0, .f "PERSIST" 3 3 .rw 0, .f "LATE_POLICY" 4 4 .rw 0,
      .f "ACT_AS" 13 8 .rw 0, .f "SEC" 14 14 .rw 0, .f "STATE" 18 16 .ro 0]⟩,
    ⟨"TE_ARG_LO", 0x120, 1, 4, [.f "-" 31 0 .rw 0]⟩,
    ⟨"TE_ARG_HI", 0x124, 1, 4, [.f "-" 31 0 .rw 0]⟩,
    ⟨"TE_PERIOD_MS", 0x128, 1, 4, [.f "-" 31 0 .rw 0]⟩,
    ⟨"TE_MISSED", 0x12C, 1, 4, [.f "-" 15 0 .ro 0]⟩,
    ⟨"TAT_PENDING", 0x140, 1, 4, [.f "-" 8 0 .ro 0]⟩,
    ⟨"TAT_NEXT", 0x144, 1, 4, [.f "IDX" 7 0 .ro 0, .f "NONE" 8 8 .ro 1]⟩,
    ⟨"TAT_FIRE_HEAD", 0x148, 1, 4, [.f "-" 5 0 .ro 0]⟩,
    ⟨"TAT_LAST_IDX", 0x150, 1, 4, [.f "IDX" 7 0 .ro 0, .f "LATE" 8 8 .ro 0, .f "SKIPPED" 9 9 .ro 0,
      .f "STEPPED" 10 10 .ro 0, .f "ERR" 11 11 .ro 0, .f "MISSED" 31 16 .ro 0]⟩,
    ⟨"TAT_LAST_FT_NS", 0x154, 1, 4, [.f "-" 31 0 .ro 0]⟩,
    ⟨"TAT_LAST_FT_SEC_LO", 0x158, 1, 4, [.f "-" 31 0 .ro 0]⟩,
    ⟨"TAT_LAST_FT_SEC_HI", 0x15C, 1, 4, [.f "-" 15 0 .ro 0]⟩,
    ⟨"FIRE_RING", 0x800, 256, 4, [.f "-" 31 0 .ro 0]⟩ ]

/-- Registers of the EVF page (chapter 16). -/
def rowsEvf : List RegRow :=
  [ ⟨"CH_ACTIVE0", 0x100, 1, 4, [.f "-" 31 0 .ro 0]⟩,
    ⟨"CH_ACTIVE1", 0x104, 1, 4, [.f "-" 15 0 .ro 0]⟩,
    ⟨"FCAP_NS", 0x200, 4, 16, [.f "-" 31 0 .ro 0]⟩,
    ⟨"FCAP_SEC_LO", 0x204, 4, 16, [.f "-" 31 0 .ro 0]⟩,
    ⟨"FCAP_INFO", 0x208, 4, 16, [.f "SEC_HI" 15 0 .ro 0, .f "CH" 21 16 .ro 0, .f "MISSED" 30 30 .ro 0,
      .f "VALID" 31 31 .ro 0]⟩,
    ⟨"ACAP_LO", 0x240, 4, 16, [.f "-" 31 0 .ro 0]⟩,
    ⟨"ACAP_HI", 0x244, 4, 16, [.f "-" 31 0 .ro 0]⟩,
    ⟨"ACAP_INFO", 0x248, 4, 16, [.f "CH" 21 16 .ro 0, .f "MISSED" 30 30 .ro 0, .f "VALID" 31 31 .ro 0]⟩,
    ⟨"CH_CFG", 0x400, 48, 32, [.f "EN" 0 0 .rw 0, .f "MODE" 1 1 .rw 0, .f "DOM" 2 2 .rw 0, .f "GATE_EN" 3 3 .rw 0,
      .f "GATE_INV" 4 4 .rw 0, .f "GATE" 11 8 .rw 0, .f "OWNER" 21 16 .rw 0, .f "SEC" 22 22 .rw 0]⟩,
    ⟨"CH_PROD0", 0x404, 48, 32, [.f "-" 31 0 .rw 0]⟩,
    ⟨"CH_PROD1", 0x408, 48, 32, [.f "-" 31 0 .rw 0]⟩,
    ⟨"CH_PROD2", 0x40c, 48, 32, [.f "-" 31 0 .rw 0]⟩,
    ⟨"CH_CONS0", 0x410, 48, 32, [.f "-" 31 0 .rw 0]⟩,
    ⟨"CH_CONS1", 0x414, 48, 32, [.f "-" 31 0 .rw 0]⟩,
    ⟨"CH_FIRE", 0x418, 48, 32, [.f "FIRE" 0 0 .wo 0]⟩,
    ⟨"CH_STAT", 0x41c, 48, 32, [.f "IN_FLIGHT" 0 0 .ro 0]⟩ ]

/-- Registers of the SEC page (chapter 03). -/
def rowsSec : List RegRow :=
  [ ⟨"SEC_STAT", 0x100, 1, 4, [.f "BOOT_OK" 0 0 .ro 0, .f "BOOT_SRC" 2 1 .ro 0, .f "BOOT_KEY" 5 4 .ro 0,
      .f "LIFECYCLE" 9 8 .ro 0, .f "SESSION" 12 12 .ro 0, .f "DEBUG_EN" 13 13 .ro 0]⟩,
    ⟨"BOOT_VER", 0x104, 1, 4, [.f "IMAGE" 15 0 .ro 0, .f "FLOOR" 31 16 .ro 0]⟩,
    ⟨"KEY_REVOKE", 0x108, 1, 4, [.f "REVOKED" 3 0 .ro 0]⟩,
    ⟨"KEY_REV_CMD", 0x10C, 1, 4, [.f "KEY" 1 0 .wo 0, .f "GO" 8 8 .wo 0]⟩,
    ⟨"KS_IDX", 0x110, 1, 4, [.f "SLOT" 7 0 .rw 0]⟩,
    ⟨"KS_CMD", 0x114, 1, 4, [.r "OP" 2 0 .wo 0 1 4]⟩,
    ⟨"KS_STAT", 0x118, 1, 4, [.f "BUSY" 0 0 .ro 0, .f "VALID" 1 1 .ro 0, .f "KCV" 31 8 .ro 0]⟩,
    ⟨"KS_DATA", 0x140, 16, 4, [.f "each" 31 0 .wo 0]⟩,
    ⟨"SESS_NONCE", 0x180, 4, 4, [.f "each" 31 0 .ro 0]⟩,
    ⟨"SESS_RESP", 0x190, 4, 4, [.f "each" 31 0 .wo 0]⟩,
    ⟨"SESS_CTRL", 0x1A0, 1, 4, [.f "OPEN" 0 0 .wo 0, .f "CLOSE" 1 1 .wo 0, .r "IDLE_S" 15 8 .rw 60 1 255]⟩ ]

/-- Registers of the MAC pages (chapter 05). -/
def rowsMac : List RegRow :=
  [ ⟨"PORT_CFG", 0x100, 1, 4, [.f "MODE" 3 0 .rw 0, .r "FEC" 5 4 .rw 0 0 2, .f "USX_SPEED" 9 8 .rw 0,
      .f "AN_EN" 10 10 .rw 1]⟩,
    ⟨"PORT_STAT", 0x104, 1, 4, [.f "LINK" 0 0 .ro 0, .f "AN_DONE" 1 1 .ro 0, .f "SPEED" 4 2 .ro 0,
      .f "FEC_LOCK" 5 5 .ro 0, .f "LOCAL_FAULT" 6 6 .ro 0, .f "REMOTE_FAULT" 7 7 .ro 0,
      .f "TX_PAUSED" 8 8 .ro 0, .f "PFC_PAUSED" 23 16 .ro 0]⟩,
    ⟨"FRAME_CFG", 0x108, 1, 4, [.f "MAXFRM" 13 0 .rw 1518, .f "DELIVER_BAD" 16 16 .rw 0, .f "KEEP_FCS" 17 17 .rw 0,
      .f "TX_PAD68" 18 18 .rw 0, .f "QINQ_EN" 19 19 .rw 0, .f "BAD_Q" 23 20 .rw 4]⟩,
    ⟨"TAG_CFG", 0x10C, 1, 4, [.f "S_VID" 11 0 .rw 0, .f "S_TPID" 31 16 .rw 34984]⟩,
    ⟨"FILT_CFG", 0x110, 1, 4, [.f "PROMISC" 0 0 .rw 0, .f "PASS_ALL_GROUPS" 1 1 .rw 0, .f "BCAST_EN" 2 2 .rw 1,
      .f "HASH_EN" 3 3 .rw 0]⟩,
    ⟨"FC_CFG", 0x114, 1, 4, [.r "FC_MODE" 1 0 .rw 0 0 2, .f "RX_FC_EN" 2 2 .rw 1, .f "PFC_RX_EN" 15 8 .rw 255,
      .r "PAUSE_QUANTA" 31 16 .rw 65535 1 65535]⟩,
    ⟨"TXCLS_PRI", 0x118, 1, 4, [.f "TOP" 2 0 .rw 5, .f "HEART" 6 4 .rw 3, .f "BASE" 10 8 .rw 1,
      .f "PTP" 14 12 .rw 7, .f "MGMT" 18 16 .rw 6]⟩,
    ⟨"RXQ_MAP_LO", 0x120, 1, 4, [.f "ROLE0" 3 0 .rw 1, .f "ROLE1" 7 4 .rw 2, .f "ROLE2" 11 8 .rw 3,
      .f "ROLE3" 15 12 .rw 4, .f "ROLE4" 19 16 .rw 5, .f "ROLE5" 23 20 .rw 0, .f "ROLE6" 27 24 .rw 0,
      .f "ROLE7" 31 28 .rw 0]⟩,
    ⟨"RXQ_MAP_HI", 0x124, 1, 4, [.f "ROLE8" 3 0 .rw 0, .f "ROLE9" 7 4 .rw 0, .f "ROLE10" 11 8 .rw 0,
      .f "ROLE11" 15 12 .rw 0, .f "ROLE12" 19 16 .rw 0, .f "ROLE13" 23 20 .rw 0, .f "ROLE14" 27 24 .rw 0,
      .f "ROLE15" 31 28 .rw 0]⟩,
    ⟨"RXQ_PRI_LO", 0x128, 1, 4, [.f "PRI0" 2 0 .rw 5, .f "PRI1" 6 4 .rw 3, .f "PRI2" 10 8 .rw 1,
      .f "PRI3" 14 12 .rw 7, .f "PRI4" 18 16 .rw 6, .f "PRI5" 22 20 .rw 0, .f "PRI6" 26 24 .rw 0,
      .f "PRI7" 30 28 .rw 0]⟩,
    ⟨"RXQ_PRI_HI", 0x12C, 1, 4, [.f "PRI8" 2 0 .rw 0, .f "PRI9" 6 4 .rw 0, .f "PRI10" 10 8 .rw 0,
      .f "PRI11" 14 12 .rw 0, .f "PRI12" 18 16 .rw 0, .f "PRI13" 22 20 .rw 0, .f "PRI14" 26 24 .rw 0,
      .f "PRI15" 30 28 .rw 0]⟩,
    ⟨"DEFAULT_Q", 0x130, 1, 4, [.f "-" 3 0 .rw 15]⟩,
    ⟨"PORT_MAC_LO", 0x138, 1, 4, [.f "OCTETS3_6" 31 0 .rw 0]⟩,
    ⟨"PORT_MAC_HI", 0x13C, 1, 4, [.f "OCTETS1_2" 15 0 .rw 0]⟩,
    ⟨"RXQ_CFG", 0x140, 16, 8, [.r "RSV_CELLS" 11 0 .rw 0 0 2048, .r "MAX_CELLS" 27 16 .rw 1024 1 2048]⟩,
    ⟨"RXQ_FC", 0x144, 16, 8, [.r "XOFF" 11 0 .rw 768 0 2048, .r "XON" 27 16 .rw 512 0 2048]⟩,
    ⟨"RXQ_STAT", 0x1C0, 16, 4, [.f "CELLS_HELD" 11 0 .ro 0, .f "FRAMES" 26 16 .ro 0, .f "IN_XOFF" 31 31 .ro 0]⟩,
    ⟨"BUF_STAT", 0x200, 1, 4, [.f "FREE_CELLS" 11 0 .ro 2048, .f "FREE_DESC" 26 16 .ro 1024]⟩,
    ⟨"TX_TS_STAT", 0x210, 1, 4, [.f "COUNT" 2 0 .ro 0]⟩,
    ⟨"TX_TS_NS", 0x214, 1, 4, [.f "-" 31 0 .ro 0]⟩,
    ⟨"TX_TS_SEC_LO", 0x218, 1, 4, [.f "-" 31 0 .ro 0]⟩,
    ⟨"TX_TS_INFO", 0x21C, 1, 4, [.f "SEC_HI" 15 0 .ro 0, .f "MSG_TYPE" 19 16 .ro 0, .f "VALID" 31 31 .ro 0]⟩,
    ⟨"TX_TS_SEQ", 0x220, 1, 4, [.f "SEQ_ID" 15 0 .ro 0, .f "DOMAIN" 23 16 .ro 0]⟩,
    ⟨"PORT_LAT", 0x230, 1, 4, [.f "RX_LAT_NS" 15 0 .rw 0, .f "TX_LAT_NS" 31 16 .rw 0]⟩ ] ++
  [ ⟨"UC_LO", 0x400, 32, 8, [.f "OCTETS3_6" 31 0 .rw 0]⟩,
    ⟨"UC_HI", 0x404, 32, 8, [.f "OCTETS1_2" 15 0 .rw 0, .f "VALID" 31 31 .rw 0]⟩,
    ⟨"MC_LO", 0x500, 32, 8, [.f "OCTETS3_6" 31 0 .rw 0]⟩,
    ⟨"MC_HI", 0x504, 32, 8, [.f "OCTETS1_2" 15 0 .rw 0, .f "VALID" 31 31 .rw 0]⟩,
    ⟨"HASH", 0x600, 128, 4, [.f "-" 31 0 .rw 0]⟩ ]

/-- Registers of the STEER page (chapter 05). -/
def rowsSteer : List RegRow :=
  [ ⟨"STEER_CFG", 0x100, 1, 4, [.f "FRATRA_ETYPE" 15 0 .rw 34997]⟩,
    ⟨"CFG_CMD", 0x104, 1, 4, [.f "SAVE" 0 0 .wo 0]⟩,
    ⟨"CFG_STAT", 0x108, 1, 4, [.f "SAVED" 0 0 .ro 0, .f "BUSY" 1 1 .ro 0, .f "RESTORED" 2 2 .ro 0,
      .f "SAVE_SEQ" 31 16 .ro 0]⟩,
    ⟨"STE_W0", 0x800, 256, 8, [.f "VID" 11 0 .rw 0, .f "PCP" 14 12 .rw 0, .f "VID_EN" 15 15 .rw 0,
      .f "PCP_EN" 16 16 .rw 0, .f "ETYPE_EN" 17 17 .rw 0, .f "TENANT_EN" 18 18 .rw 0,
      .f "PORT_MASK" 23 20 .rw 0, .f "QUEUE" 27 24 .rw 0, .f "VALID" 31 31 .rw 0]⟩,
    ⟨"STE_W1", 0x804, 256, 8, [.f "ETYPE" 15 0 .rw 0, .f "TENANT" 21 16 .rw 0]⟩ ]

/-- Registers of the FWP page (chapter 07). -/
def rowsFwp : List RegRow :=
  [ ⟨"FWP_CFG", 0x100, 1, 4, [.r "STREAM_IDLE" 15 0 .rw 10000 100 60000]⟩,
    ⟨"STREAMS_USED", 0x104, 1, 4, [.f "-" 14 0 .ro 0]⟩,
    ⟨"OPTAGS_USED", 0x108, 1, 4, [.f "-" 16 0 .ro 0]⟩,
    ⟨"OPTAGS_PEAK", 0x10C, 1, 4, [.f "-" 16 0 .rc 0]⟩ ]

/-- Registers of the KVX page (chapter 07). -/
def rowsKvx : List RegRow :=
  [ ⟨"KEY_CAP_LO", 0x100, 1, 4, [.f "DRAM" 31 0 .ro 0]⟩,
    ⟨"KEY_CAP_HI", 0x104, 1, 4, [.f "DRAM" 31 0 .ro 0]⟩,
    ⟨"KEYS_LO", 0x108, 1, 4, [.f "-" 31 0 .ro 0]⟩,
    ⟨"KEYS_HI", 0x10C, 1, 4, [.f "-" 31 0 .ro 0]⟩,
    ⟨"INC_CFG", 0x120, 1, 4, [.f "EN" 0 0 .rw 0, .f "TENANT" 13 8 .rw 0]⟩,
    ⟨"INC_WIN", 0x124, 1, 4, [.r "PRE_S" 15 0 .rw 60 1 3600, .r "POST_S" 31 16 .rw 30 0 3600]⟩,
    ⟨"INC_STAT", 0x128, 1, 4, [.f "OPEN" 0 0 .ro 0, .f "EVENTS" 31 16 .ro 0]⟩,
    ⟨"INC_END_NS", 0x12C, 1, 4, [.f "-" 31 0 .ro 0]⟩,
    ⟨"INC_END_SEC_LO", 0x130, 1, 4, [.f "-" 31 0 .ro 0]⟩,
    ⟨"INC_END_SEC_HI", 0x134, 1, 4, [.f "-" 15 0 .ro 0]⟩,
    ⟨"STAGED", 0x140, 1, 4, [.f "-" 7 0 .ro 0]⟩,
    ⟨"NEXT_SWAP_ID", 0x144, 1, 4, [.f "-" 15 0 .ro 1]⟩ ]

/-- Registers of the TEN pages (chapter 08). -/
def rowsTen : List RegRow :=
  [ ⟨"TEN_CFG", 0x100, 1, 4, [.f "ACTIVE" 0 0 .rw 0, .f "NOTE" 2 1 .rw 2, .f "RETENTION" 3 3 .rw 0,
      .r "MIRROR" 5 4 .rw 0 0 2, .f "LEAD" 6 6 .rw 0, .f "ENC" 7 7 .rw 1, .r "WEIGHT" 15 8 .rw 1 1 255,
      .r "BURST_MAX" 22 16 .rw 16 1 64]⟩,
    ⟨"TEN_BIND", 0x104, 1, 4, [.f "VID" 11 0 .rw 0, .f "PORT_SET" 19 16 .rw 0]⟩,
    ⟨"CAP_QUOTA", 0x108, 1, 4, [.f "-" 31 0 .rw 0]⟩,
    ⟨"OPTAG_QUOTA", 0x10C, 1, 4, [.r "-" 16 0 .rw 1024 1 65536]⟩,
    ⟨"OPTAG_RSV", 0x110, 1, 4, [.f "-" 16 0 .rw 0]⟩,
    ⟨"TOP_CAP", 0x114, 1, 4, [.r "TOP_RATE" 15 0 .rw 100 1 65535, .r "TOP_BURST" 31 16 .rw 256 4 65535]⟩,
    ⟨"TEN_CMD", 0x120, 1, 4, [.f "RESET" 0 0 .wo 0, .f "PURGE" 1 1 .wo 0]⟩,
    ⟨"TEN_STAT", 0x124, 1, 4, [.f "RST_BUSY" 0 0 .ro 0, .f "PURGE_BUSY" 1 1 .ro 0, .f "KEY_HOLD" 2 2 .ro 0,
      .f "STREAM_HOLD" 3 3 .ro 0]⟩,
    ⟨"NOTIFY_MAC_LO", 0x130, 1, 4, [.f "OCTETS3_6" 31 0 .rw 0]⟩,
    ⟨"NOTIFY_MAC_HI", 0x134, 1, 4, [.f "OCTETS1_2" 15 0 .rw 0]⟩,
    ⟨"NOTIFY_CFG", 0x138, 1, 4, [.f "KEY_EV" 0 0 .rw 0, .r "KEY_EV_MAX" 31 16 .rw 1000 1 65535]⟩,
    ⟨"KEYS_LO", 0x140, 1, 4, [.f "-" 31 0 .ro 0]⟩,
    ⟨"KEYS_HI", 0x144, 1, 4, [.f "-" 31 0 .ro 0]⟩,
    ⟨"USED_LO", 0x148, 1, 4, [.f "-" 31 0 .ro 0]⟩,
    ⟨"USED_HI", 0x14C, 1, 4, [.f "-" 31 0 .ro 0]⟩,
    ⟨"OPTAGS_USED", 0x150, 1, 4, [.f "-" 16 0 .ro 0]⟩,
    ⟨"STREAMS_USED", 0x154, 1, 4, [.f "-" 14 0 .ro 0]⟩,
    ⟨"VER_LO", 0x158, 1, 4, [.f "-" 31 0 .ro 0]⟩,
    ⟨"VER_HI", 0x15C, 1, 4, [.f "-" 31 0 .ro 0]⟩,
    ⟨"AES_KCV", 0x160, 1, 4, [.f "-" 23 0 .ro 0]⟩,
    ⟨"NOTE_W_ETH", 0x300, 1, 4, [.r "HEART_W" 7 0 .rw 3 1 255, .r "BASE_W" 15 8 .rw 1 1 255]⟩,
    ⟨"NOTE_W_DIE", 0x304, 1, 4, [.r "HEART_W" 7 0 .rw 3 1 255, .r "BASE_W" 15 8 .rw 1 1 255]⟩,
    ⟨"NOTE_W_DRAM", 0x308, 1, 4, [.r "HEART_W" 7 0 .rw 3 1 255, .r "BASE_W" 15 8 .rw 1 1 255]⟩,
    ⟨"NOTE_W_ACD", 0x30C, 1, 4, [.r "HEART_W" 7 0 .rw 3 1 255, .r "BASE_W" 15 8 .rw 1 1 255]⟩ ]

/-- Registers of the FTL page (chapter 09). -/
def rowsFtl : List RegRow :=
  [ ⟨"MAP_CFG", 0x100, 1, 4, [.r "PROMOTE_THRESH" 7 0 .rw 8 1 255, .r "PROMOTE_WINDOW" 15 8 .rw 10 1 255,
      .r "FOLD_MIN_LIVE" 24 16 .rw 240 128 256]⟩,
    ⟨"COOL_CFG", 0x104, 1, 4, [.r "COOL_WINDOW" 15 0 .rw 600 10 65535]⟩,
    ⟨"GMAP_CFG", 0x108, 1, 4, [.r "GRAIN_MAP_MAX" 3 0 .rw 8 1 8]⟩,
    ⟨"SPARE_CFG", 0x10C, 1, 4, [.r "SPARE_PCT" 4 0 .rw 7 4 25]⟩,
    ⟨"GLEAN_CFG", 0x110, 1, 4, [.f "START" 7 0 .rw 64, .f "URGENT" 15 8 .rw 24, .f "FLOOR" 23 16 .rw 8,
      .r "STOP_ADD" 31 24 .rw 16 1 255]⟩,
    ⟨"GLEAN_SCORE", 0x114, 1, 4, [.r "AGE_WEIGHT" 3 0 .rw 4 0 15, .r "AGE_CAP_H" 15 8 .rw 24 1 255,
      .r "EMPTY_LIVE" 21 16 .rw 16 0 63]⟩,
    ⟨"WB_CFG", 0x118, 1, 4, [.r "WB_AGE_MS" 15 0 .rw 100 10 10000, .r "WB_HIGH_PCT" 23 16 .rw 50 10 90]⟩,
    ⟨"UPKEEP_CFG", 0x11C, 1, 4, [.r "UPKEEP_W" 7 0 .rw 1 1 255]⟩,
    ⟨"POP", 0x140, 1, 4, [.f "LUNS" 9 0 .ro 0, .f "CELL" 13 12 .ro 0, .f "SLC_DIV" 15 14 .ro 0]⟩,
    ⟨"GEOM", 0x144, 1, 4, [.f "GOOD_MIN" 15 0 .ro 0, .f "PAGES" 31 16 .ro 0]⟩,
    ⟨"GEOM2", 0x148, 1, 4, [.f "PAGE_KIB" 7 0 .ro 0, .f "HRV_BLK" 15 8 .ro 0]⟩,
    ⟨"USABLE_LO", 0x150, 1, 4, [.f "-" 31 0 .ro 0]⟩,
    ⟨"USABLE_HI", 0x154, 1, 4, [.f "-" 31 0 .ro 0]⟩,
    ⟨"NAME_RSV", 0x158, 1, 4, [.f "-" 31 0 .ro 0]⟩,
    ⟨"GMAP_USED", 0x160, 1, 4, [.f "-" 13 0 .ro 0]⟩,
    ⟨"REGIONS_RES", 0x164, 1, 4, [.f "-" 22 0 .ro 0]⟩,
    ⟨"REGIONS_EVICT", 0x168, 1, 4, [.f "-" 25 0 .ro 0]⟩,
    ⟨"SMAP_USED", 0x16C, 1, 4, [.f "-" 26 0 .ro 0]⟩,
    ⟨"FREE_MIN", 0x170, 1, 4, [.f "BLOCKS" 15 0 .ro 0, .f "LUN" 24 16 .ro 0]⟩,
    ⟨"UPKEEP_STATE", 0x174, 1, 4, [.f "BG" 9 0 .ro 0, .f "URG" 19 10 .ro 0, .f "FLR" 29 20 .ro 0]⟩ ]

/-- Registers of the NCH pages (chapter 09). -/
def rowsNch : List RegRow :=
  [ ⟨"NCH_CFG", 0x100, 1, 4, [.r "RATE_CAP" 11 0 .rw 3600 400 3600]⟩,
    ⟨"NCH_CMD", 0x104, 1, 4, [.f "RETRAIN" 0 0 .wo 0]⟩,
    ⟨"NCH_STAT", 0x108, 1, 4, [.f "IFACE" 1 0 .ro 0, .f "RATE" 15 4 .ro 0, .f "TRAINED" 16 16 .ro 0,
      .f "TRAINING" 17 17 .ro 0]⟩,
    ⟨"LUN_PRESENT", 0x10C, 1, 4, [.f "-" 31 0 .ro 0]⟩,
    ⟨"LUN_EXCLUDED", 0x110, 1, 4, [.f "-" 31 0 .ro 0]⟩,
    ⟨"LUN_STAT", 0x180, 32, 4, [.f "FREE" 15 0 .ro 0, .f "STATE" 17 16 .ro 0, .f "QDEPTH" 31 24 .ro 0]⟩ ]

/-- Registers of the ECC page (chapter 10). -/
def rowsEcc : List RegRow :=
  [ ⟨"ECC_CFG", 0x100, 1, 4, [.r "RETRY_MAX" 3 0 .rw 15 0 15, .f "SOFT_EN" 4 4 .rw 1,
      .r "REFRESH_BITS" 14 8 .rw 80 16 120]⟩,
    ⟨"READ_LIMIT_TLC", 0x104, 1, 4, [.r "-" 19 0 .rw 100000 1000 1000000]⟩,
    ⟨"READ_LIMIT_QLC", 0x108, 1, 4, [.r "-" 19 0 .rw 30000 1000 1000000]⟩,
    ⟨"PATROL_CFG", 0x10C, 1, 4, [.r "PATROL_DAYS" 6 0 .rw 7 1 90, .f "PATROL_EN" 8 8 .rw 1]⟩,
    ⟨"PATROL_STAT", 0x110, 1, 4, [.f "PROGRESS" 9 0 .ro 0, .f "OVERDUE" 10 10 .ro 0, .f "PASSES" 31 16 .ro 0]⟩,
    ⟨"LAST_UE", 0x120, 1, 4, [.f "LUN" 9 0 .ro 0, .f "BLOCK" 31 16 .ro 0]⟩,
    ⟨"LAST_UE_PAGE", 0x124, 1, 4, [.f "PAGE" 15 0 .ro 0, .f "CW" 17 16 .ro 0]⟩ ]

/-- Registers of the HLTH page (chapter 10). -/
def rowsHlth : List RegRow :=
  [ ⟨"WEAR_CFG", 0x100, 1, 4, [.r "WEAR_SPREAD" 12 0 .rw 200 20 5000, .f "WL_EN" 16 16 .rw 1]⟩,
    ⟨"RATED_PE", 0x104, 1, 4, [.f "-" 16 0 .rw 0]⟩,
    ⟨"DIE_FAIL_CFG", 0x108, 1, 4, [.r "DIE_FAIL_LIMIT" 7 0 .rw 8 2 255, .r "DIE_TIMEOUT_MS" 15 8 .rw 50 10 255]⟩,
    ⟨"TEMP_CFG", 0x10C, 1, 4, [.r "TEMP_LIMIT" 7 0 .rw 105 60 125]⟩,
    ⟨"LUN_CMD", 0x110, 1, 4, [.f "LUN" 8 0 .wo 0, .f "FAIL" 12 12 .wo 0]⟩,
    ⟨"HEAL_STAT", 0x114, 1, 4, [.f "ACTIVE" 0 0 .ro 0, .f "WAITING_TWIN" 1 1 .ro 0, .f "IDENT_RUNNING" 2 2 .ro 0]⟩,
    ⟨"HEALING_LO", 0x118, 1, 4, [.f "-" 31 0 .ro 0]⟩,
    ⟨"HEALING_HI", 0x11C, 1, 4, [.f "-" 31 0 .ro 0]⟩,
    ⟨"LOST_LO", 0x120, 1, 4, [.f "-" 31 0 .ro 0]⟩,
    ⟨"LOST_HI", 0x124, 1, 4, [.f "-" 31 0 .ro 0]⟩,
    ⟨"HLOG_EVENT", 0x128, 1, 4, [.f "-" 31 0 .ro 0]⟩,
    ⟨"FAILED_MAP", 0x140, 16, 4, [.f "-" 31 0 .ro 0]⟩,
    ⟨"REPORT", 0x400, 72, 4, [.f "each" 31 0 .ro 0]⟩ ]

/-- Registers of the DRAM page (chapter 09). -/
def rowsDram : List RegRow :=
  [ ⟨"DRAM_STAT", 0x100, 1, 4, [.f "SIZE_GIB" 7 0 .ro 0, .f "RATE" 15 8 .ro 0, .f "TRAINED" 16 16 .ro 0]⟩,
    ⟨"SCRUB_CFG", 0x104, 1, 4, [.r "SCRUB_H" 7 0 .rw 4 1 168, .f "SCRUB_EN" 8 8 .rw 1]⟩,
    ⟨"ECC_MIB", 0x110, 1, 4, [.f "-" 15 0 .ro 0]⟩,
    ⟨"WB_MIB", 0x114, 1, 4, [.f "-" 15 0 .ro 0]⟩,
    ⟨"SMAP_MIB", 0x118, 1, 4, [.f "-" 15 0 .ro 0]⟩,
    ⟨"WORK_MIB", 0x11C, 1, 4, [.f "-" 15 0 .ro 0]⟩,
    ⟨"RCACHE_MIB", 0x120, 1, 4, [.f "-" 15 0 .ro 0]⟩,
    ⟨"VAR_MIB", 0x124, 1, 4, [.f "-" 15 0 .ro 0]⟩,
    ⟨"SLOTS_FREE_LO", 0x128, 1, 4, [.f "-" 31 0 .ro 0]⟩,
    ⟨"SLOTS_FREE_HI", 0x12C, 1, 4, [.f "-" 31 0 .ro 0]⟩,
    ⟨"UE_LAST_ADDR", 0x130, 1, 4, [.f "-" 31 0 .ro 0]⟩ ]

/-- Registers of the HRV page (chapter 11). -/
def rowsHrv : List RegRow :=
  [ ⟨"HRV_BUDGET", 0x100, 1, 4, [.r "BUDGET_MIB" 11 0 .rw 512 64 2048]⟩,
    ⟨"PF_CFG", 0x104, 1, 4, [.r "PF_TRIP_MV" 9 0 .rw 600 100 950, .r "PF_HYST_MV" 23 16 .rw 30 5 100]⟩,
    ⟨"BANK_CFG1", 0x108, 1, 4, [.f "VMIN_MV" 15 0 .rw 0, .r "ETA_PCT" 22 16 .rw 85 50 100]⟩,
    ⟨"BANK_CFG2", 0x10C, 1, 4, [.r "PH_DW" 15 0 .rw 330 10 1000, .f "VHOLD_DIV" 31 16 .rw 0]⟩,
    ⟨"BANK_CFG3", 0x110, 1, 4, [.f "C_DECL_UF" 15 0 .rw 0, .f "CHG_I_MA" 31 16 .rw 0]⟩,
    ⟨"BANK_CHK", 0x114, 1, 4, [.f "VCHK_LO_MV" 15 0 .rw 0, .f "VCHK_HI_MV" 31 16 .rw 0]⟩,
    ⟨"CHECK_CFG", 0x118, 1, 4, [.r "CHECK_MS" 7 0 .rw 10 1 255, .r "EMPTY_BITS" 15 8 .rw 8 1 64]⟩,
    ⟨"BANK_STAT", 0x120, 1, 4, [.f "V_BANK_MV" 15 0 .ro 0, .f "MEASURED" 16 16 .ro 0, .f "WEAK" 17 17 .ro 0,
      .f "V_LOW" 18 18 .ro 0]⟩,
    ⟨"BANK_C", 0x124, 1, 4, [.f "C_MEAS_UF" 15 0 .ro 0, .f "C_USED_UF" 31 16 .ro 0]⟩,
    ⟨"BUDGET_STAT", 0x128, 1, 4, [.f "EFF_MIB" 15 0 .ro 0, .f "DMAX_MIB" 31 16 .ro 0]⟩,
    ⟨"DIRTY_KIB", 0x12C, 1, 4, [.f "-" 21 0 .ro 0]⟩,
    ⟨"RATE", 0x130, 1, 4, [.f "HRV_RATE_MBS" 15 0 .ro 0, .f "T_FIX_US" 31 16 .ro 3000]⟩,
    ⟨"AREA_MIB", 0x134, 1, 4, [.f "-" 15 0 .ro 0]⟩,
    ⟨"LAST_DUR_US", 0x140, 1, 4, [.f "-" 31 0 .ro 0]⟩,
    ⟨"LAST_KIB", 0x144, 1, 4, [.f "-" 31 0 .ro 0]⟩,
    ⟨"LAST_INFO", 0x148, 1, 4, [.f "DONE" 0 0 .ro 0, .f "INCOMPLETE" 1 1 .ro 0, .f "LUNS_DROPPED" 15 8 .ro 0,
      .f "MARGIN_PCT" 22 16 .ro 0]⟩,
    ⟨"HSEQ", 0x14C, 1, 4, [.f "-" 31 0 .ro 0]⟩,
    ⟨"ESN_LO", 0x150, 1, 4, [.f "-" 31 0 .ro 0]⟩,
    ⟨"ESN_HI", 0x154, 1, 4, [.f "-" 15 0 .ro 0]⟩,
    ⟨"RECOV_STAT", 0x160, 1, 4, [.f "REERASED" 15 0 .ro 0, .f "EMPTY_FAIL" 31 16 .ro 0]⟩,
    ⟨"RECOV_INFO", 0x164, 1, 4, [.f "RECOV_MS" 15 0 .ro 0, .f "KIND" 17 16 .ro 0]⟩,
    ⟨"SEG_UNCORR", 0x168, 1, 4, [.f "-" 31 0 .ro 0]⟩ ]

/-- Registers of the ACD page (chapter 12). -/
def rowsAcd : List RegRow :=
  [ ⟨"ACD_CFG", 0x100, 1, 4, [.f "RATE" 1 0 .rw 2, .f "MAX_WIDTH" 6 4 .rw 4, .f "AUTO_RETRAIN" 8 8 .rw 1,
      .f "AUTO_WIDEN" 9 9 .rw 1, .f "ISO_POLICY" 12 12 .rw 1, .r "RETRAIN_GRACE_MS" 23 16 .rw 20 5 255,
      .r "REPLAY_LIMIT" 31 24 .rw 16 1 255]⟩,
    ⟨"ACD_CMD", 0x104, 1, 4, [.f "RETRAIN" 0 0 .wo 0, .f "WIDTH_SET" 1 1 .wo 0, .f "WIDTH" 6 4 .wo 0,
      .f "ADOPT" 8 8 .wo 0, .f "ADOPT_SRC" 9 9 .wo 0, .f "TAKEOVER" 12 12 .wo 0, .f "FORGET" 16 16 .wo 0]⟩,
    ⟨"LINK_STAT", 0x108, 1, 4, [.f "TRAIN" 2 0 .ro 0, .f "WIDTH" 6 4 .ro 0, .f "RATE" 9 8 .ro 0,
      .f "LANES" 15 12 .ro 0, .f "RANK_CONFLICT" 16 16 .ro 0, .f "REQ_PENDING" 17 17 .ro 0]⟩,
    ⟨"PAIR_STAT", 0x10C, 1, 4, [.f "PAIR" 2 0 .ro 0, .f "RANK" 3 3 .ro 0, .f "TAKEN_OVER" 4 4 .ro 0,
      .f "ETH_PATH" 5 5 .ro 0, .f "HB_OK" 6 6 .ro 0]⟩,
    ⟨"PARTNER_SN_LO", 0x110, 1, 4, [.f "-" 31 0 .ro 0]⟩,
    ⟨"PARTNER_SN_HI", 0x114, 1, 4, [.f "-" 31 0 .ro 0]⟩,
    ⟨"EPOCH", 0x118, 1, 4, [.f "-" 31 0 .ro 0]⟩,
    ⟨"TWIN_EPOCH", 0x11C, 1, 4, [.f "-" 31 0 .ro 0]⟩,
    ⟨"ASYNC_CFG", 0x120, 1, 4, [.r "ASYNC_LAG_MAX" 15 0 .rw 100 1 60000]⟩,
    ⟨"JOIN_CFG", 0x124, 1, 4, [.r "JOIN_WAIT_MS" 15 0 .rw 2000 100 60000]⟩,
    ⟨"HB_CFG", 0x128, 1, 4, [.r "ETH_HB_MS" 7 0 .rw 1 1 100, .r "ETH_HB_MISS" 15 8 .rw 8 2 255,
      .f "HB_PORTS" 19 16 .rw 0, .r "HB_VID" 31 20 .rw 0 0 4094]⟩,
    ⟨"HB_ETYPE", 0x12C, 1, 4, [.f "-" 15 0 .rw 34998]⟩,
    ⟨"VC_W", 0x130, 1, 4, [.r "VC0_W" 7 0 .rw 3 1 255, .r "VC2_W" 15 8 .rw 1 1 255]⟩,
    ⟨"DIV_CFG", 0x134, 1, 4, [.r "DIV_MAX" 15 0 .rw 4096 1 16384]⟩,
    ⟨"CRED01", 0x140, 1, 4, [.f "VC0" 11 0 .ro 2048, .f "VC1" 23 16 .ro 128]⟩,
    ⟨"CRED2", 0x144, 1, 4, [.f "VC2" 10 0 .ro 1024]⟩,
    ⟨"RETRY_STAT", 0x148, 1, 4, [.f "HELD" 12 0 .ro 0]⟩,
    ⟨"LAG_US", 0x14C, 1, 4, [.f "-" 31 0 .ro 0]⟩,
    ⟨"BACKLOG", 0x150, 1, 4, [.f "-" 20 0 .ro 0]⟩,
    ⟨"DIV_ENTRIES", 0x154, 1, 4, [.f "-" 31 0 .ro 0]⟩,
    ⟨"CATCHUP_LEFT", 0x158, 1, 4, [.f "-" 31 0 .ro 0]⟩,
    ⟨"DIV_MAP0", 0x160, 1, 4, [.f "-" 31 0 .ro 0]⟩,
    ⟨"DIV_MAP1", 0x164, 1, 4, [.f "-" 31 0 .ro 0]⟩,
    ⟨"FULL_MAP0", 0x168, 1, 4, [.f "-" 31 0 .ro 0]⟩ ] ++
  [ ⟨"FULL_MAP1", 0x16C, 1, 4, [.f "-" 31 0 .ro 0]⟩ ]

/-- Registers of the ACL pages (chapter 12). -/
def rowsAcl : List RegRow :=
  [ ⟨"LANE_STAT", 0x100, 1, 4, [.f "LOCKED" 0 0 .ro 0, .f "ALIGNED" 1 1 .ro 0, .f "IN_USE" 2 2 .ro 0,
      .f "EQ_DONE" 3 3 .ro 0, .f "SKEW" 13 8 .ro 0, .f "TX_PRESET" 19 16 .ro 0]⟩,
    ⟨"LANE_CFG", 0x104, 1, 4, [.f "LANE_DIS" 0 0 .rw 0, .r "PRESET_FORCE" 7 4 .rw 0 0 11]⟩,
    ⟨"EYE", 0x108, 1, 4, [.f "EYE_H" 15 0 .ro 0, .f "EYE_V" 31 16 .ro 0]⟩ ]

/-- Registers of the AON page (chapter 13). -/
def rowsAon : List RegRow :=
  [ ⟨"TICK_LO", 0x100, 1, 4, [.f "-" 31 0 .ro 0]⟩,
    ⟨"TICK_HI", 0x104, 1, 4, [.f "-" 31 0 .ro 0]⟩,
    ⟨"ALM_CMP_LO", 0x120, 4, 16, [.f "-" 31 0 .rw 0]⟩,
    ⟨"ALM_CMP_HI", 0x124, 4, 16, [.f "-" 31 0 .rw 0]⟩,
    ⟨"ALM_CTRL", 0x128, 4, 16, [.f "EN" 0 0 .rw 0, .f "WAKE" 1 1 .rw 0, .f "HOST" 2 2 .rw 0, .f "LOG" 3 3 .rw 0,
      .f "PERIOD_MS" 31 8 .rw 0]⟩,
    ⟨"WAKE_CFG", 0x160, 1, 4, [.f "-" 4 0 .rw 31]⟩,
    ⟨"WAKE_SRC", 0x164, 1, 4, [.f "-" 4 0 .ro 0]⟩,
    ⟨"HOST_WAKE_CFG", 0x168, 1, 4, [.f "PIN_EN" 0 0 .rw 0, .f "USB_EN" 1 1 .rw 0, .f "MODE" 2 2 .rw 0,
      .r "PULSE_MS" 15 8 .rw 10 1 255]⟩,
    ⟨"HOST_WAKE_CMD", 0x16C, 1, 4, [.f "RELEASE" 0 0 .wo 0]⟩,
    ⟨"SILL_STAT", 0x170, 1, 4, [.f "UNMOVED" 12 0 .ro 0, .f "SSEQ" 31 16 .ro 0]⟩ ]

/-- Registers of the PSQ page (chapter 13). -/
def rowsPsq : List RegRow :=
  [ ⟨"PSQ_STAT", 0x110, 1, 4, [.f "STEP" 6 0 .ro 0, .f "TASK" 11 8 .ro 0, .f "ACTIVE" 12 12 .ro 0]⟩,
    ⟨"LAST_FAIL", 0x114, 1, 4, [.f "STEP" 6 0 .ro 0, .f "TASK" 11 8 .ro 0, .f "CODE" 19 16 .ro 0]⟩,
    ⟨"RESULT", 0x118, 1, 4, [.f "-" 31 0 .ro 0]⟩,
    ⟨"TASK_A", 0x200, 16, 8, [.f "START" 6 0 .rw 0, .f "VALID" 8 8 .rw 0, .r "RAIL" 10 9 .rw 0 0 2,
      .f "INIT" 11 11 .rw 0, .f "PERIOD_MS" 31 16 .rw 0]⟩,
    ⟨"TASK_B", 0x204, 16, 8, [.f "PHASE_MS" 15 0 .rw 0]⟩,
    ⟨"ALERT_MAP", 0x300, 8, 4, [.f "ADDR" 6 0 .rw 0, .f "BUS" 7 7 .rw 0, .f "TASK" 11 8 .rw 0,
      .f "VALID" 15 15 .rw 0]⟩,
    ⟨"DATA", 0x400, 128, 4, [.f "BYTES" 31 0 .rw 0]⟩,
    ⟨"STEP_W0", 0x800, 128, 8, [.f "KIND" 3 0 .rw 0, .f "UNIT" 7 4 .rw 0, .f "ADDR" 14 8 .rw 0, .f "LEN" 19 16 .rw 0,
      .f "TO_STREAM" 21 21 .rw 0, .f "STREAM" 27 22 .rw 0, .f "END" 31 31 .rw 0]⟩,
    ⟨"STEP_W1", 0x804, 128, 8, [.f "WORD1" 31 0 .rw 0]⟩ ]

/-- Registers of the I2C pages (chapter 14). -/
def rowsI2c : List RegRow :=
  [ ⟨"I2C_CFG", 0x100, 1, 4, [.r "MODE" 1 0 .rw 1 0 2, .f "TIM_OVR" 2 2 .rw 0, .f "ALERT_EN" 4 4 .rw 0,
      .f "CURE_EN" 5 5 .rw 1, .r "RAIL" 7 6 .rw 0 0 2, .r "STRETCH_MAX_MS" 15 8 .rw 10 1 24,
      .r "BACKOFF_US" 23 16 .rw 20 1 255, .r "CURE_MAX" 27 24 .rw 3 1 15]⟩,
    ⟨"I2C_TIM", 0x104, 1, 4, [.f "LOW_T" 8 0 .rw 70, .f "HIGH_T" 24 16 .rw 40]⟩,
    ⟨"I2C_TIM2", 0x108, 1, 4, [.f "HOLD_T" 5 0 .rw 15, .r "RISE_LIM" 13 8 .rw 20 4 63]⟩,
    ⟨"I2C_STAT", 0x110, 1, 4, [.f "BUS_BUSY" 0 0 .ro 0, .f "XFER" 1 1 .ro 0, .f "STUCK" 2 2 .ro 0,
      .f "CURING" 3 3 .ro 0, .f "ALERT_LINE" 4 4 .ro 0, .f "SCL" 5 5 .ro 0, .f "SDA" 6 6 .ro 0,
      .f "LAST_ARA" 14 8 .ro 0, .f "CURE_COUNT" 19 16 .ro 0]⟩,
    ⟨"I2C_CMD", 0x114, 1, 4, [.f "CLR_STUCK" 0 0 .wo 0]⟩ ]

/-- Registers of the UART pages (chapter 14). -/
def rowsUart : List RegRow :=
  [ ⟨"UART_CFG", 0x100, 1, 4, [.f "DATA8" 0 0 .rw 1, .r "PARITY" 2 1 .rw 0 0 2, .f "STOP2" 3 3 .rw 0,
      .f "RESYNC_ON_FE" 4 4 .rw 0, .r "FRAMING" 6 5 .rw 0 0 2, .f "FLUSH_ON_TX" 7 7 .rw 0,
      .f "DE_EN" 8 8 .rw 0, .f "DE_POL" 9 9 .rw 0, .f "RX_DURING_TX" 10 10 .rw 0, .r "RAIL" 13 12 .rw 0 0 2]⟩,
    ⟨"UART_DIV", 0x104, 1, 4, [.f "DIV" 23 0 .rw 6944]⟩,
    ⟨"UART_FRAME", 0x108, 1, 4, [.f "DELIM_CH" 7 0 .rw 10, .f "FRAME_MAX" 15 8 .rw 16,
      .f "IDLE_CHARS" 19 16 .rw 3, .f "LEN_INCL" 20 20 .rw 0]⟩,
    ⟨"UART_DE", 0x10C, 1, 4, [.f "DE_LEAD16" 7 0 .rw 16, .f "DE_LAG16" 15 8 .rw 16]⟩,
    ⟨"UART_STAT", 0x110, 1, 4, [.f "RX_LEVEL" 8 0 .ro 0, .f "TX_BUSY" 16 16 .ro 0, .f "DE" 17 17 .ro 0,
      .f "IN_FRAME" 18 18 .ro 0, .f "FRAMES_READY" 27 20 .ro 0]⟩,
    ⟨"UART_CMD", 0x114, 1, 4, [.f "RX_FLUSH" 0 0 .wo 0]⟩ ]

/-- Registers of the ADC page (chapter 14). -/
def rowsAdc : List RegRow :=
  [ ⟨"RESULT", 0x100, 8, 4, [.f "CODE" 11 0 .ro 0, .f "TICK" 31 16 .ro 0]⟩,
    ⟨"SEQ_CFG", 0x200, 4, 32, [.f "EN" 0 0 .rw 0, .f "TRIG" 1 1 .rw 0, .f "COUNT_M1" 6 4 .rw 0,
      .r "PERIOD_US" 31 12 .rw 0 1 1048575]⟩,
    ⟨"SEQ_ENT", 0x204, 28, 4, [.f "CH_A" 2 0 .rw 0, .f "STREAM_A" 13 8 .rw 0, .f "TO_STREAM_A" 15 15 .rw 0,
      .f "CH_B" 18 16 .rw 0, .f "STREAM_B" 29 24 .rw 0, .f "TO_STREAM_B" 31 31 .rw 0]⟩ ]

/-- Registers of the GPIO page (chapter 14). -/
def rowsGpio : List RegRow :=
  [ ⟨"GPI_IN", 0x100, 1, 4, [.f "-" 31 0 .ro 0]⟩,
    ⟨"GPI_RAW", 0x104, 1, 4, [.f "-" 31 0 .ro 0]⟩,
    ⟨"GPI_INV", 0x108, 1, 4, [.f "-" 31 0 .rw 0]⟩,
    ⟨"EDGE_RISE", 0x10C, 1, 4, [.f "-" 31 0 .rw 0]⟩,
    ⟨"EDGE_FALL", 0x110, 1, 4, [.f "-" 31 0 .rw 0]⟩,
    ⟨"GPI_DB", 0x140, 32, 4, [.r "DB_100US" 7 0 .rw 0 0 160]⟩,
    ⟨"GPO_OUT", 0x200, 1, 4, [.f "-" 7 0 .rw 0]⟩,
    ⟨"GPO_OE", 0x204, 1, 4, [.f "-" 7 0 .rw 0]⟩,
    ⟨"GPO_OD", 0x208, 1, 4, [.f "-" 7 0 .rw 0]⟩,
    ⟨"GPO_SRC", 0x210, 8, 4, [.r "SRC" 1 0 .rw 0 0 2, .f "REC" 12 8 .rw 0, .r "PULSE_US" 31 16 .rw 0 1 65535]⟩,
    ⟨"RAIL_CTRL", 0x300, 1, 4, [.f "ON0" 0 0 .rw 0, .f "OE0" 1 1 .rw 0, .f "ON1" 4 4 .rw 0, .f "OE1" 5 5 .rw 0]⟩,
    ⟨"RAIL_TIME", 0x304, 1, 4, [.r "PWR_CYCLE_MS" 15 0 .rw 200 10 10000, .r "RAIL_SETTLE_MS" 31 16 .rw 20 1 1000]⟩,
    ⟨"RAIL_STAT", 0x308, 1, 4, [.f "CURING0" 0 0 .ro 0, .f "CURING1" 1 1 .ro 0, .f "DOWN0" 4 4 .ro 0,
      .f "DOWN1" 5 5 .ro 0]⟩,
    ⟨"PULL_EN", 0x320, 3, 4, [.f "-" 31 0 .rw 0]⟩,
    ⟨"PULL_UP", 0x330, 3, 4, [.f "-" 31 0 .rw 0]⟩ ]

/-- Registers of the REC page (chapter 13). -/
def rowsRec : List RegRow :=
  [ ⟨"OCCUPANCY", 0x100, 1, 4, [.f "-" 31 0 .rw 0]⟩,
    ⟨"LATCH_TICK_LO", 0x104, 1, 4, [.f "-" 31 0 .ro 0]⟩,
    ⟨"LATCH_TICK_HI", 0x108, 1, 4, [.f "-" 31 0 .ro 0]⟩,
    ⟨"REC_STATE", 0x200, 1, 4, [.f "-" 31 0 .ro 0]⟩,
    ⟨"REC_CFG0", 0x400, 32, 16, [.f "KIND" 2 0 .rw 0, .f "INVERT" 3 3 .rw 0, .f "SRC" 9 4 .rw 0,
      .f "GROUP" 15 12 .rw 0, .f "OUT" 23 16 .rw 0, .f "CGROUP" 28 24 .rw 0]⟩,
    ⟨"REC_CFG1", 0x404, 32, 16, [.f "HI" 31 0 .rw 0]⟩,
    ⟨"REC_CFG2", 0x408, 32, 16, [.f "LO" 31 0 .rw 0]⟩,
    ⟨"REC_CFG3", 0x40c, 32, 16, [.f "D" 4 0 .rw 0, .f "MSTREAM" 13 8 .rw 0, .f "HOLDOFF_MS" 31 16 .rw 0]⟩,
    ⟨"CGROUP_CNT", 0x600, 128, 4, [.f "COUNT" 31 0 .ro 0]⟩,
    ⟨"TERM", 0x800, 256, 4, [.f "INPUT" 5 0 .rw 0, .f "EDGE" 6 6 .rw 0, .f "VALID" 7 7 .rw 0,
      .f "GAP_MS" 31 16 .rw 0]⟩ ]

/-- Registers of the BAT page (chapter 13). -/
def rowsBat : List RegRow :=
  [ ⟨"BAT_CFG", 0x100, 1, 4, [.f "TENANT" 5 0 .rw 0, .f "MOVE_EN" 8 8 .rw 0, .r "HWM_PCT" 22 16 .rw 75 1 100]⟩,
    ⟨"PREFIX", 0x104, 8, 4, [.f "BYTES" 31 0 .rw 0]⟩,
    ⟨"PREFIX_LEN", 0x124, 1, 4, [.r "-" 5 0 .rw 1 1 32]⟩,
    ⟨"BLOCKS", 0x130, 1, 4, [.f "FREE" 8 0 .ro 256, .f "QUOTA_SUM" 24 16 .ro 0]⟩,
    ⟨"STR_CFG", 0x400, 64, 16, [.f "FILTER" 2 0 .rw 0, .f "PARAM" 14 8 .rw 0, .r "DECIM" 23 16 .rw 1 1 255,
      .f "BAT_EN" 24 24 .rw 0, .f "POLICY" 25 25 .rw 0]⟩,
    ⟨"STR_BATCH", 0x404, 64, 16, [.f "QUOTA_BLK" 8 0 .rw 0, .r "BATCH_N" 22 16 .rw 124 1 124]⟩,
    ⟨"STR_MS", 0x408, 64, 16, [.r "BATCH_MS" 15 0 .rw 10000 1 40000]⟩,
    ⟨"STR_VAL", 0x40C, 64, 16, [.f "-" 31 0 .ro 0]⟩,
    ⟨"STR_HELD", 0x800, 64, 4, [.f "BLOCKS" 8 0 .ro 0, .f "OPEN" 16 16 .ro 0]⟩ ]

/-- Registers of the AQE page (chapter 15). -/
def rowsAqe : List RegRow :=
  [ ⟨"AQE_CFG", 0x100, 1, 4, [.r "SEG_LOG2" 3 0 .rw 0 0 12, .f "MOVE_EN" 8 8 .rw 0, .f "EVF_PROF" 18 16 .rw 0]⟩,
    ⟨"AQE_CMD", 0x104, 1, 4, [.f "ARM" 0 0 .wo 0, .f "PROFILE" 3 1 .wo 0, .f "FORCE" 4 4 .wo 0,
      .f "STOP" 5 5 .wo 0]⟩,
    ⟨"AQE_STAT", 0x108, 1, 4, [.f "STATE" 1 0 .ro 0, .f "PROFILE" 4 2 .ro 0, .f "SEG" 27 16 .ro 0]⟩,
    ⟨"RSEQ_NEXT", 0x10C, 1, 4, [.f "-" 31 0 .ro 0]⟩,
    ⟨"SEG_COUNTS", 0x110, 1, 4, [.f "FREE" 12 0 .ro 1, .f "HELD" 28 16 .ro 0]⟩,
    ⟨"DCH_SRC", 0x120, 4, 4, [.f "SRC0" 5 0 .rw 0, .f "INV0" 6 6 .rw 0, .f "SRC1" 13 8 .rw 0,
      .f "INV1" 14 14 .rw 0, .f "SRC2" 21 16 .rw 0, .f "INV2" 22 22 .rw 0, .f "SRC3" 29 24 .rw 0,
      .f "INV3" 30 30 .rw 0]⟩,
    ⟨"ANA_SLOT", 0x140, 8, 4, [.f "STREAM" 5 0 .rw 0, .f "DEADBAND" 31 8 .rw 0]⟩,
    ⟨"TOUT_CFG", 0x160, 1, 4, [.f "MODE" 1 0 .rw 0, .f "OE" 2 2 .rw 0, .f "POL" 3 3 .rw 0,
      .r "WIDTH_TICKS" 15 8 .rw 50 1 255]⟩,
    ⟨"PROF_A", 0x200, 8, 32, [.f "TRIG_SRC" 2 0 .rw 0, .f "EDGE" 5 4 .rw 0, .f "TRIG_DCH" 11 8 .rw 0,
      .f "RING" 12 12 .rw 0, .f "OVERWRITE" 13 13 .rw 0, .f "MOVE" 14 14 .rw 0, .f "REARM" 15 15 .rw 0]⟩,
    ⟨"PROF_B", 0x204, 8, 32, [.r "POST_TICKS" 31 0 .rw 0 1 4294967295]⟩,
    ⟨"PROF_C", 0x208, 8, 32, [.f "DCH_EN" 15 0 .rw 0, .f "ANA_EN" 23 16 .rw 0]⟩,
    ⟨"PROF_D", 0x20c, 8, 32, [.f "FIRST_SEG" 11 0 .rw 0, .f "NSEG_M1" 28 16 .rw 0]⟩,
    ⟨"PROF_E", 0x210, 8, 32, [.f "ARM_TMO_MS" 15 0 .rw 0]⟩,
    ⟨"SEG_SEL", 0x600, 1, 4, [.f "SEG" 11 0 .rw 0, .f "WIN" 24 16 .rw 0]⟩,
    ⟨"SEG_INFO", 0x604, 1, 4, [.f "LEN" 20 0 .ro 0, .f "STATE" 25 24 .ro 0]⟩,
    ⟨"SEG_CMD", 0x608, 1, 4, [.f "FREE" 0 0 .wo 0]⟩,
    ⟨"SEG_WIN", 0x800, 512, 4, [.f "BYTES" 31 0 .ro 0]⟩ ]

/-- Registers of the MEAS pages (chapter 15). -/
def rowsMeas : List RegRow :=
  [ ⟨"MEAS_CFG", 0x100, 1, 4, [.f "FUNC" 3 0 .rw 0, .f "ANALOG" 4 4 .rw 0, .f "SRC" 11 8 .rw 0,
      .f "EDGE" 13 12 .rw 0, .f "POL" 14 14 .rw 0]⟩,
    ⟨"RES_VAL", 0x110, 1, 4, [.f "-" 31 0 .ro 0]⟩,
    ⟨"RES_INFO", 0x114, 1, 4, [.f "N" 15 0 .ro 0, .f "VALID" 16 16 .ro 0, .f "MULTI" 17 17 .ro 0,
      .f "SAT" 18 18 .ro 0, .f "COARSE" 19 19 .ro 0]⟩,
    ⟨"RES_RSEQ", 0x118, 1, 4, [.f "-" 31 0 .ro 0]⟩ ]

/-- Registers of the USBH page (chapter 17). -/
def rowsUsbh : List RegRow :=
  [ ⟨"USBH_CFG", 0x100, 1, 4, [.f "HS_DISABLE" 0 0 .rw 0, .f "DN0_EN" 1 1 .rw 1, .f "DN1_EN" 2 2 .rw 1,
      .r "OC_FILT_MS" 15 8 .rw 2 1 20]⟩,
    ⟨"VID", 0x104, 1, 4, [.f "-" 15 0 .ro 0]⟩,
    ⟨"PID", 0x108, 1, 4, [.f "HUB" 15 0 .ro 2400, .f "LMF" 31 16 .ro 2401]⟩,
    ⟨"UP_STAT", 0x110, 1, 4, [.f "STATE" 2 0 .ro 0, .f "SUSPENDED" 3 3 .ro 0, .f "HIGH_SPEED" 4 4 .ro 0,
      .f "VBUS" 5 5 .ro 0, .f "LMF_ADDR" 14 8 .ro 0, .f "RWAKE_HUB" 16 16 .ro 0, .f "RWAKE_LMF" 17 17 .ro 0]⟩,
    ⟨"FRAME", 0x114, 1, 4, [.f "FRAME" 10 0 .ro 0, .f "UFRAME" 13 11 .ro 0]⟩,
    ⟨"PORT_STAT", 0x120, 2, 4, [.f "CONNECT" 0 0 .ro 0, .f "ENABLE" 1 1 .ro 0, .f "SUSPEND" 2 2 .ro 0,
      .f "OVER_CURRENT" 3 3 .ro 0, .f "RESET" 4 4 .ro 0, .f "POWER" 8 8 .ro 0, .f "LOW_SPEED" 9 9 .ro 0,
      .f "HIGH_SPEED" 10 10 .ro 0, .f "PEN" 11 11 .ro 0, .f "OC_N" 12 12 .ro 0]⟩,
    ⟨"TT_STAT", 0x130, 1, 4, [.f "NP_BUSY" 2 0 .ro 0, .f "P_BUSY" 12 8 .ro 0]⟩ ]

/-- Registers of the LMF page (chapter 17). -/
def rowsLmf : List RegRow :=
  [ ⟨"LMF_CFG", 0x100, 1, 4, [.f "NOTE_WAKE" 0 0 .rw 0, .r "ACK_DELAY_US" 15 8 .rw 20 1 255]⟩,
    ⟨"LMF_CMD", 0x104, 1, 4, [.f "SEQ_RESET" 0 0 .wo 0]⟩,
    ⟨"SEQ_STAT", 0x108, 1, 4, [.f "OUT_EXP" 15 0 .ro 0, .f "IN_NEXT" 31 16 .ro 0]⟩,
    ⟨"BUF_STAT", 0x10C, 1, 4, [.f "OUT_HELD" 3 0 .ro 0, .f "IN_QUEUED" 11 8 .ro 0]⟩,
    ⟨"HALT_STAT", 0x110, 1, 4, [.f "EP1_OUT" 0 0 .ro 0, .f "EP1_IN" 1 1 .ro 0, .f "EP2" 2 2 .ro 0,
      .f "CAUSE" 10 8 .ro 0]⟩,
    ⟨"WR_STATUS", 0x114, 1, 4, [.f "DONE" 6 0 .ro 0, .f "REJECTED" 14 8 .ro 0, .f "FIRST" 21 16 .ro 0,
      .f "CODE" 31 24 .ro 0]⟩,
    ⟨"EP2_STAT", 0x118, 1, 4, [.f "QUEUED" 5 0 .ro 0, .f "NSEQ" 31 16 .ro 0]⟩ ]

/-- Registers of the HKP page (chapter 17). -/
def rowsHkp : List RegRow :=
  [ ⟨"MBOX_CFG", 0x100, 1, 4, [.r "MBOX_TMO_MS" 15 0 .rw 1000 100 60000]⟩,
    ⟨"MBOX_STAT", 0x104, 1, 4, [.f "BUSY" 0 0 .ro 0, .f "REPLY_READY" 1 1 .ro 0, .f "PATH" 2 2 .ro 0,
      .f "MSG" 31 16 .ro 0]⟩,
    ⟨"HKP_STAT", 0x108, 1, 4, [.f "ROM" 0 0 .ro 0, .f "IMAGE" 1 1 .ro 0]⟩,
    ⟨"IMG_STAT", 0x10C, 1, 4, [.f "TARGET" 2 0 .ro 0, .f "OPEN" 3 3 .ro 0, .f "RECEIVED" 31 8 .ro 0]⟩ ]

/-- The block-specific registers of a page of each block. -/
def blockRows : Block → List RegRow
  | .sys => rowsSys
  | .clk => rowsClk
  | .pwr => rowsPwr
  | .rst => rowsRst
  | .time => rowsTime
  | .tat => rowsTat
  | .evf => rowsEvf
  | .sec => rowsSec
  | .mac => rowsMac
  | .steer => rowsSteer
  | .fwp => rowsFwp
  | .kvx => rowsKvx
  | .ten => rowsTen
  | .ftl => rowsFtl
  | .nch => rowsNch
  | .ecc => rowsEcc
  | .hlth => rowsHlth
  | .dram => rowsDram
  | .hrv => rowsHrv
  | .acd => rowsAcd
  | .acl => rowsAcl
  | .aon => rowsAon
  | .psq => rowsPsq
  | .i2c => rowsI2c
  | .uart => rowsUart
  | .adc => rowsAdc
  | .gpio => rowsGpio
  | .recog => rowsRec
  | .bat => rowsBat
  | .aqe => rowsAqe
  | .meas => rowsMeas
  | .usbh => rowsUsbh
  | .lmf => rowsLmf
  | .hkp => rowsHkp

/-! Page numbers and register offsets under the names the manual gives them. -/

def Pg.SYS : Nat := 0x000
def Pg.CLK : Nat := 0x001
def Pg.PWR : Nat := 0x002
def Pg.RST : Nat := 0x003
def Pg.TIME : Nat := 0x004
def Pg.TAT : Nat := 0x005
def Pg.EVF : Nat := 0x006
def Pg.SEC : Nat := 0x007
def Pg.MAC (n : Nat) : Nat := 0x010 + n
def Pg.STEER : Nat := 0x014
def Pg.FWP : Nat := 0x020
def Pg.KVX : Nat := 0x021
def Pg.TEN (n : Nat) : Nat := 0x040 + n
def Pg.FTL : Nat := 0x080
def Pg.NCH (n : Nat) : Nat := 0x081 + n
def Pg.ECC : Nat := 0x091
def Pg.HLTH : Nat := 0x092
def Pg.DRAM : Nat := 0x098
def Pg.HRV : Nat := 0x0A0
def Pg.ACD : Nat := 0x0B0
def Pg.ACL (n : Nat) : Nat := 0x0B1 + n
def Pg.AON : Nat := 0x0C0
def Pg.PSQ : Nat := 0x0C1
def Pg.I2C (n : Nat) : Nat := 0x0C2 + n
def Pg.UART (n : Nat) : Nat := 0x0C4 + n
def Pg.ADC : Nat := 0x0C8
def Pg.GPIO : Nat := 0x0C9
def Pg.REC : Nat := 0x0CA
def Pg.BAT : Nat := 0x0CB
def Pg.AQE : Nat := 0x0D0
def Pg.MEAS (n : Nat) : Nat := 0x0D1 + n
def Pg.USBH : Nat := 0x0E0
def Pg.LMF : Nat := 0x0E1
def Pg.HKP : Nat := 0x0F0

def Off.PAGE_OWNER : Nat := 0x008
def Off.PAGE_CTRL : Nat := 0x00C
def Off.PAGE_STAT : Nat := 0x010
def Off.IRQ_FLAG : Nat := 0x014
def Off.IRQ_EN : Nat := 0x018
def Off.IRQ_FORCE : Nat := 0x01C
def Off.IRQ_ROUTE : Nat := 0x020
def Off.ERR_CODE : Nat := 0x024
def Off.SYS_DEV_ID : Nat := 0x100
def Off.SYS_SERIAL_LO : Nat := 0x104
def Off.SYS_SERIAL_HI : Nat := 0x108
def Off.SYS_STRAPS : Nat := 0x10C
def Off.SYS_SCRATCH : Nat := 0x110
def Off.SYS_PATH_EN : Nat := 0x114
def Off.SYS_REJ_LAST_ADDR : Nat := 0x120
def Off.SYS_REJ_LAST_INFO : Nat := 0x124
def Off.SYS_IRQ_SUM (n : Nat) : Nat := 0x200 + 4 * n
def Off.CLK_CLK_STAT : Nat := 0x100
def Off.CLK_CLK_HOLD : Nat := 0x104
def Off.PWR_PWR_STATE : Nat := 0x100
def Off.PWR_PWR_CMD : Nat := 0x104
def Off.PWR_PWR_CFG : Nat := 0x108
def Off.PWR_PWR_SEQ : Nat := 0x10C
def Off.PWR_PWR_STAT : Nat := 0x110
def Off.PWR_LAST_SETTLE_US : Nat := 0x114
def Off.PWR_SETTLE_DIRTY : Nat := 0x118
def Off.RST_RST_CMD : Nat := 0x100
def Off.RST_RST_CAUSE : Nat := 0x104
def Off.RST_BOOT_STAGE : Nat := 0x108
def Off.RST_IMAGE_INFO : Nat := 0x10C
def Off.RST_WDT_CFG : Nat := 0x110
def Off.TIME_FT_STAT : Nat := 0x100
def Off.TIME_FT_CMD : Nat := 0x104
def Off.TIME_FT_ADDEND : Nat := 0x108
def Off.TIME_FT_RD_NS : Nat := 0x110
def Off.TIME_FT_RD_SEC_LO : Nat := 0x114
def Off.TIME_FT_RD_SEC_HI : Nat := 0x118
def Off.TIME_FT_SET_NS : Nat := 0x120
def Off.TIME_FT_SET_SEC_LO : Nat := 0x124
def Off.TIME_FT_SET_SEC_HI : Nat := 0x128
def Off.TIME_FT_STEP_LO : Nat := 0x130
def Off.TIME_FT_STEP_HI : Nat := 0x134
def Off.TIME_PTP_CFG : Nat := 0x140
def Off.TIME_PTP_THRESH : Nat := 0x144
def Off.TIME_PTP_OFFSET : Nat := 0x148
def Off.TIME_PTP_TIMEOUT : Nat := 0x14C
def Off.TIME_TSYNC_CFG : Nat := 0x150
def Off.TIME_TSYNC_OFFSET : Nat := 0x154
def Off.TIME_TSYNC_CAP_NS : Nat := 0x158
def Off.TIME_TSYNC_CAP_SEC_LO : Nat := 0x15C
def Off.TIME_TSYNC_CAP_SEC_HI : Nat := 0x160
def Off.TIME_TSYNC_OUT_CFG : Nat := 0x170
def Off.TIME_TSYNC_OUT_ADV : Nat := 0x174
def Off.TIME_CORR_CFG : Nat := 0x180
def Off.TIME_CORR_HEAD : Nat := 0x184
def Off.TIME_CORR_RING (n : Nat) : Nat := 0x800 + 4 * n
def Off.TAT_TAT_CFG : Nat := 0x100
def Off.TAT_TAT_IDX : Nat := 0x104
def Off.TAT_TAT_CMD : Nat := 0x108
def Off.TAT_TE_T_NS : Nat := 0x110
def Off.TAT_TE_T_SEC_LO : Nat := 0x114
def Off.TAT_TE_T_SEC_HI : Nat := 0x118
def Off.TAT_TE_CTRL : Nat := 0x11C
def Off.TAT_TE_ARG_LO : Nat := 0x120
def Off.TAT_TE_ARG_HI : Nat := 0x124
def Off.TAT_TE_PERIOD_MS : Nat := 0x128
def Off.TAT_TE_MISSED : Nat := 0x12C
def Off.TAT_TAT_PENDING : Nat := 0x140
def Off.TAT_TAT_NEXT : Nat := 0x144
def Off.TAT_TAT_FIRE_HEAD : Nat := 0x148
def Off.TAT_TAT_LAST_IDX : Nat := 0x150
def Off.TAT_TAT_LAST_FT_NS : Nat := 0x154
def Off.TAT_TAT_LAST_FT_SEC_LO : Nat := 0x158
def Off.TAT_TAT_LAST_FT_SEC_HI : Nat := 0x15C
def Off.TAT_FIRE_RING (n : Nat) : Nat := 0x800 + 4 * n
def Off.EVF_CH_ACTIVE0 : Nat := 0x100
def Off.EVF_CH_ACTIVE1 : Nat := 0x104
def Off.EVF_FCAP_NS (n : Nat) : Nat := 0x200 + 16 * n
def Off.EVF_FCAP_SEC_LO (n : Nat) : Nat := 0x204 + 16 * n
def Off.EVF_FCAP_INFO (n : Nat) : Nat := 0x208 + 16 * n
def Off.EVF_ACAP_LO (n : Nat) : Nat := 0x240 + 16 * n
def Off.EVF_ACAP_HI (n : Nat) : Nat := 0x244 + 16 * n
def Off.EVF_ACAP_INFO (n : Nat) : Nat := 0x248 + 16 * n
def Off.EVF_CH_CFG (n : Nat) : Nat := 0x400 + 32 * n
def Off.EVF_CH_PROD0 (n : Nat) : Nat := 0x404 + 32 * n
def Off.EVF_CH_PROD1 (n : Nat) : Nat := 0x408 + 32 * n
def Off.EVF_CH_PROD2 (n : Nat) : Nat := 0x40c + 32 * n
def Off.EVF_CH_CONS0 (n : Nat) : Nat := 0x410 + 32 * n
def Off.EVF_CH_CONS1 (n : Nat) : Nat := 0x414 + 32 * n
def Off.EVF_CH_FIRE (n : Nat) : Nat := 0x418 + 32 * n
def Off.EVF_CH_STAT (n : Nat) : Nat := 0x41c + 32 * n
def Off.SEC_SEC_STAT : Nat := 0x100
def Off.SEC_BOOT_VER : Nat := 0x104
def Off.SEC_KEY_REVOKE : Nat := 0x108
def Off.SEC_KEY_REV_CMD : Nat := 0x10C
def Off.SEC_KS_IDX : Nat := 0x110
def Off.SEC_KS_CMD : Nat := 0x114
def Off.SEC_KS_STAT : Nat := 0x118
def Off.SEC_KS_DATA (n : Nat) : Nat := 0x140 + 4 * n
def Off.SEC_SESS_NONCE (n : Nat) : Nat := 0x180 + 4 * n
def Off.SEC_SESS_RESP (n : Nat) : Nat := 0x190 + 4 * n
def Off.SEC_SESS_CTRL : Nat := 0x1A0
def Off.MAC_PORT_CFG : Nat := 0x100
def Off.MAC_PORT_STAT : Nat := 0x104
def Off.MAC_FRAME_CFG : Nat := 0x108
def Off.MAC_TAG_CFG : Nat := 0x10C
def Off.MAC_FILT_CFG : Nat := 0x110
def Off.MAC_FC_CFG : Nat := 0x114
def Off.MAC_TXCLS_PRI : Nat := 0x118
def Off.MAC_RXQ_MAP_LO : Nat := 0x120
def Off.MAC_RXQ_MAP_HI : Nat := 0x124
def Off.MAC_RXQ_PRI_LO : Nat := 0x128
def Off.MAC_RXQ_PRI_HI : Nat := 0x12C
def Off.MAC_DEFAULT_Q : Nat := 0x130
def Off.MAC_PORT_MAC_LO : Nat := 0x138
def Off.MAC_PORT_MAC_HI : Nat := 0x13C
def Off.MAC_RXQ_CFG (n : Nat) : Nat := 0x140 + 8 * n
def Off.MAC_RXQ_FC (n : Nat) : Nat := 0x144 + 8 * n
def Off.MAC_RXQ_STAT (n : Nat) : Nat := 0x1C0 + 4 * n
def Off.MAC_BUF_STAT : Nat := 0x200
def Off.MAC_TX_TS_STAT : Nat := 0x210
def Off.MAC_TX_TS_NS : Nat := 0x214
def Off.MAC_TX_TS_SEC_LO : Nat := 0x218
def Off.MAC_TX_TS_INFO : Nat := 0x21C
def Off.MAC_TX_TS_SEQ : Nat := 0x220
def Off.MAC_PORT_LAT : Nat := 0x230
def Off.MAC_UC_LO (n : Nat) : Nat := 0x400 + 8 * n
def Off.MAC_UC_HI (n : Nat) : Nat := 0x404 + 8 * n
def Off.MAC_MC_LO (n : Nat) : Nat := 0x500 + 8 * n
def Off.MAC_MC_HI (n : Nat) : Nat := 0x504 + 8 * n
def Off.MAC_HASH (n : Nat) : Nat := 0x600 + 4 * n
def Off.STEER_STEER_CFG : Nat := 0x100
def Off.STEER_CFG_CMD : Nat := 0x104
def Off.STEER_CFG_STAT : Nat := 0x108
def Off.STEER_STE_W0 (n : Nat) : Nat := 0x800 + 8 * n
def Off.STEER_STE_W1 (n : Nat) : Nat := 0x804 + 8 * n
def Off.FWP_FWP_CFG : Nat := 0x100
def Off.FWP_STREAMS_USED : Nat := 0x104
def Off.FWP_OPTAGS_USED : Nat := 0x108
def Off.FWP_OPTAGS_PEAK : Nat := 0x10C
def Off.KVX_KEY_CAP_LO : Nat := 0x100
def Off.KVX_KEY_CAP_HI : Nat := 0x104
def Off.KVX_KEYS_LO : Nat := 0x108
def Off.KVX_KEYS_HI : Nat := 0x10C
def Off.KVX_INC_CFG : Nat := 0x120
def Off.KVX_INC_WIN : Nat := 0x124
def Off.KVX_INC_STAT : Nat := 0x128
def Off.KVX_INC_END_NS : Nat := 0x12C
def Off.KVX_INC_END_SEC_LO : Nat := 0x130
def Off.KVX_INC_END_SEC_HI : Nat := 0x134
def Off.KVX_STAGED : Nat := 0x140
def Off.KVX_NEXT_SWAP_ID : Nat := 0x144
def Off.TEN_TEN_CFG : Nat := 0x100
def Off.TEN_TEN_BIND : Nat := 0x104
def Off.TEN_CAP_QUOTA : Nat := 0x108
def Off.TEN_OPTAG_QUOTA : Nat := 0x10C
def Off.TEN_OPTAG_RSV : Nat := 0x110
def Off.TEN_TOP_CAP : Nat := 0x114
def Off.TEN_TEN_CMD : Nat := 0x120
def Off.TEN_TEN_STAT : Nat := 0x124
def Off.TEN_NOTIFY_MAC_LO : Nat := 0x130
def Off.TEN_NOTIFY_MAC_HI : Nat := 0x134
def Off.TEN_NOTIFY_CFG : Nat := 0x138
def Off.TEN_KEYS_LO : Nat := 0x140
def Off.TEN_KEYS_HI : Nat := 0x144
def Off.TEN_USED_LO : Nat := 0x148
def Off.TEN_USED_HI : Nat := 0x14C
def Off.TEN_OPTAGS_USED : Nat := 0x150
def Off.TEN_STREAMS_USED : Nat := 0x154
def Off.TEN_VER_LO : Nat := 0x158
def Off.TEN_VER_HI : Nat := 0x15C
def Off.TEN_AES_KCV : Nat := 0x160
def Off.TEN_NOTE_W_ETH : Nat := 0x300
def Off.TEN_NOTE_W_DIE : Nat := 0x304
def Off.TEN_NOTE_W_DRAM : Nat := 0x308
def Off.TEN_NOTE_W_ACD : Nat := 0x30C
def Off.FTL_MAP_CFG : Nat := 0x100
def Off.FTL_COOL_CFG : Nat := 0x104
def Off.FTL_GMAP_CFG : Nat := 0x108
def Off.FTL_SPARE_CFG : Nat := 0x10C
def Off.FTL_GLEAN_CFG : Nat := 0x110
def Off.FTL_GLEAN_SCORE : Nat := 0x114
def Off.FTL_WB_CFG : Nat := 0x118
def Off.FTL_UPKEEP_CFG : Nat := 0x11C
def Off.FTL_POP : Nat := 0x140
def Off.FTL_GEOM : Nat := 0x144
def Off.FTL_GEOM2 : Nat := 0x148
def Off.FTL_USABLE_LO : Nat := 0x150
def Off.FTL_USABLE_HI : Nat := 0x154
def Off.FTL_NAME_RSV : Nat := 0x158
def Off.FTL_GMAP_USED : Nat := 0x160
def Off.FTL_REGIONS_RES : Nat := 0x164
def Off.FTL_REGIONS_EVICT : Nat := 0x168
def Off.FTL_SMAP_USED : Nat := 0x16C
def Off.FTL_FREE_MIN : Nat := 0x170
def Off.FTL_UPKEEP_STATE : Nat := 0x174
def Off.NCH_NCH_CFG : Nat := 0x100
def Off.NCH_NCH_CMD : Nat := 0x104
def Off.NCH_NCH_STAT : Nat := 0x108
def Off.NCH_LUN_PRESENT : Nat := 0x10C
def Off.NCH_LUN_EXCLUDED : Nat := 0x110
def Off.NCH_LUN_STAT (n : Nat) : Nat := 0x180 + 4 * n
def Off.ECC_ECC_CFG : Nat := 0x100
def Off.ECC_READ_LIMIT_TLC : Nat := 0x104
def Off.ECC_READ_LIMIT_QLC : Nat := 0x108
def Off.ECC_PATROL_CFG : Nat := 0x10C
def Off.ECC_PATROL_STAT : Nat := 0x110
def Off.ECC_LAST_UE : Nat := 0x120
def Off.ECC_LAST_UE_PAGE : Nat := 0x124
def Off.HLTH_WEAR_CFG : Nat := 0x100
def Off.HLTH_RATED_PE : Nat := 0x104
def Off.HLTH_DIE_FAIL_CFG : Nat := 0x108
def Off.HLTH_TEMP_CFG : Nat := 0x10C
def Off.HLTH_LUN_CMD : Nat := 0x110
def Off.HLTH_HEAL_STAT : Nat := 0x114
def Off.HLTH_HEALING_LO : Nat := 0x118
def Off.HLTH_HEALING_HI : Nat := 0x11C
def Off.HLTH_LOST_LO : Nat := 0x120
def Off.HLTH_LOST_HI : Nat := 0x124
def Off.HLTH_HLOG_EVENT : Nat := 0x128
def Off.HLTH_FAILED_MAP (n : Nat) : Nat := 0x140 + 4 * n
def Off.HLTH_REPORT (n : Nat) : Nat := 0x400 + 4 * n
def Off.DRAM_DRAM_STAT : Nat := 0x100
def Off.DRAM_SCRUB_CFG : Nat := 0x104
def Off.DRAM_ECC_MIB : Nat := 0x110
def Off.DRAM_WB_MIB : Nat := 0x114
def Off.DRAM_SMAP_MIB : Nat := 0x118
def Off.DRAM_WORK_MIB : Nat := 0x11C
def Off.DRAM_RCACHE_MIB : Nat := 0x120
def Off.DRAM_VAR_MIB : Nat := 0x124
def Off.DRAM_SLOTS_FREE_LO : Nat := 0x128
def Off.DRAM_SLOTS_FREE_HI : Nat := 0x12C
def Off.DRAM_UE_LAST_ADDR : Nat := 0x130
def Off.HRV_HRV_BUDGET : Nat := 0x100
def Off.HRV_PF_CFG : Nat := 0x104
def Off.HRV_BANK_CFG1 : Nat := 0x108
def Off.HRV_BANK_CFG2 : Nat := 0x10C
def Off.HRV_BANK_CFG3 : Nat := 0x110
def Off.HRV_BANK_CHK : Nat := 0x114
def Off.HRV_CHECK_CFG : Nat := 0x118
def Off.HRV_BANK_STAT : Nat := 0x120
def Off.HRV_BANK_C : Nat := 0x124
def Off.HRV_BUDGET_STAT : Nat := 0x128
def Off.HRV_DIRTY_KIB : Nat := 0x12C
def Off.HRV_RATE : Nat := 0x130
def Off.HRV_AREA_MIB : Nat := 0x134
def Off.HRV_LAST_DUR_US : Nat := 0x140
def Off.HRV_LAST_KIB : Nat := 0x144
def Off.HRV_LAST_INFO : Nat := 0x148
def Off.HRV_HSEQ : Nat := 0x14C
def Off.HRV_ESN_LO : Nat := 0x150
def Off.HRV_ESN_HI : Nat := 0x154
def Off.HRV_RECOV_STAT : Nat := 0x160
def Off.HRV_RECOV_INFO : Nat := 0x164
def Off.HRV_SEG_UNCORR : Nat := 0x168
def Off.ACD_ACD_CFG : Nat := 0x100
def Off.ACD_ACD_CMD : Nat := 0x104
def Off.ACD_LINK_STAT : Nat := 0x108
def Off.ACD_PAIR_STAT : Nat := 0x10C
def Off.ACD_PARTNER_SN_LO : Nat := 0x110
def Off.ACD_PARTNER_SN_HI : Nat := 0x114
def Off.ACD_EPOCH : Nat := 0x118
def Off.ACD_TWIN_EPOCH : Nat := 0x11C
def Off.ACD_ASYNC_CFG : Nat := 0x120
def Off.ACD_JOIN_CFG : Nat := 0x124
def Off.ACD_HB_CFG : Nat := 0x128
def Off.ACD_HB_ETYPE : Nat := 0x12C
def Off.ACD_VC_W : Nat := 0x130
def Off.ACD_DIV_CFG : Nat := 0x134
def Off.ACD_CRED01 : Nat := 0x140
def Off.ACD_CRED2 : Nat := 0x144
def Off.ACD_RETRY_STAT : Nat := 0x148
def Off.ACD_LAG_US : Nat := 0x14C
def Off.ACD_BACKLOG : Nat := 0x150
def Off.ACD_DIV_ENTRIES : Nat := 0x154
def Off.ACD_CATCHUP_LEFT : Nat := 0x158
def Off.ACD_DIV_MAP0 : Nat := 0x160
def Off.ACD_DIV_MAP1 : Nat := 0x164
def Off.ACD_FULL_MAP0 : Nat := 0x168
def Off.ACD_FULL_MAP1 : Nat := 0x16C
def Off.ACL_LANE_STAT : Nat := 0x100
def Off.ACL_LANE_CFG : Nat := 0x104
def Off.ACL_EYE : Nat := 0x108
def Off.AON_TICK_LO : Nat := 0x100
def Off.AON_TICK_HI : Nat := 0x104
def Off.AON_ALM_CMP_LO (n : Nat) : Nat := 0x120 + 16 * n
def Off.AON_ALM_CMP_HI (n : Nat) : Nat := 0x124 + 16 * n
def Off.AON_ALM_CTRL (n : Nat) : Nat := 0x128 + 16 * n
def Off.AON_WAKE_CFG : Nat := 0x160
def Off.AON_WAKE_SRC : Nat := 0x164
def Off.AON_HOST_WAKE_CFG : Nat := 0x168
def Off.AON_HOST_WAKE_CMD : Nat := 0x16C
def Off.AON_SILL_STAT : Nat := 0x170
def Off.PSQ_PSQ_STAT : Nat := 0x110
def Off.PSQ_LAST_FAIL : Nat := 0x114
def Off.PSQ_RESULT : Nat := 0x118
def Off.PSQ_TASK_A (n : Nat) : Nat := 0x200 + 8 * n
def Off.PSQ_TASK_B (n : Nat) : Nat := 0x204 + 8 * n
def Off.PSQ_ALERT_MAP (n : Nat) : Nat := 0x300 + 4 * n
def Off.PSQ_DATA (n : Nat) : Nat := 0x400 + 4 * n
def Off.PSQ_STEP_W0 (n : Nat) : Nat := 0x800 + 8 * n
def Off.PSQ_STEP_W1 (n : Nat) : Nat := 0x804 + 8 * n
def Off.I2C_I2C_CFG : Nat := 0x100
def Off.I2C_I2C_TIM : Nat := 0x104
def Off.I2C_I2C_TIM2 : Nat := 0x108
def Off.I2C_I2C_STAT : Nat := 0x110
def Off.I2C_I2C_CMD : Nat := 0x114
def Off.UART_UART_CFG : Nat := 0x100
def Off.UART_UART_DIV : Nat := 0x104
def Off.UART_UART_FRAME : Nat := 0x108
def Off.UART_UART_DE : Nat := 0x10C
def Off.UART_UART_STAT : Nat := 0x110
def Off.UART_UART_CMD : Nat := 0x114
def Off.ADC_RESULT (n : Nat) : Nat := 0x100 + 4 * n
def Off.ADC_SEQ_CFG (n : Nat) : Nat := 0x200 + 32 * n
def Off.ADC_SEQ_ENT (n : Nat) : Nat := 0x204 + 4 * n
def Off.GPIO_GPI_IN : Nat := 0x100
def Off.GPIO_GPI_RAW : Nat := 0x104
def Off.GPIO_GPI_INV : Nat := 0x108
def Off.GPIO_EDGE_RISE : Nat := 0x10C
def Off.GPIO_EDGE_FALL : Nat := 0x110
def Off.GPIO_GPI_DB (n : Nat) : Nat := 0x140 + 4 * n
def Off.GPIO_GPO_OUT : Nat := 0x200
def Off.GPIO_GPO_OE : Nat := 0x204
def Off.GPIO_GPO_OD : Nat := 0x208
def Off.GPIO_GPO_SRC (n : Nat) : Nat := 0x210 + 4 * n
def Off.GPIO_RAIL_CTRL : Nat := 0x300
def Off.GPIO_RAIL_TIME : Nat := 0x304
def Off.GPIO_RAIL_STAT : Nat := 0x308
def Off.GPIO_PULL_EN (n : Nat) : Nat := 0x320 + 4 * n
def Off.GPIO_PULL_UP (n : Nat) : Nat := 0x330 + 4 * n
def Off.REC_OCCUPANCY : Nat := 0x100
def Off.REC_LATCH_TICK_LO : Nat := 0x104
def Off.REC_LATCH_TICK_HI : Nat := 0x108
def Off.REC_REC_STATE : Nat := 0x200
def Off.REC_REC_CFG0 (n : Nat) : Nat := 0x400 + 16 * n
def Off.REC_REC_CFG1 (n : Nat) : Nat := 0x404 + 16 * n
def Off.REC_REC_CFG2 (n : Nat) : Nat := 0x408 + 16 * n
def Off.REC_REC_CFG3 (n : Nat) : Nat := 0x40c + 16 * n
def Off.REC_CGROUP_CNT (n : Nat) : Nat := 0x600 + 4 * n
def Off.REC_TERM (n : Nat) : Nat := 0x800 + 4 * n
def Off.BAT_BAT_CFG : Nat := 0x100
def Off.BAT_PREFIX (n : Nat) : Nat := 0x104 + 4 * n
def Off.BAT_PREFIX_LEN : Nat := 0x124
def Off.BAT_BLOCKS : Nat := 0x130
def Off.BAT_STR_CFG (n : Nat) : Nat := 0x400 + 16 * n
def Off.BAT_STR_BATCH (n : Nat) : Nat := 0x404 + 16 * n
def Off.BAT_STR_MS (n : Nat) : Nat := 0x408 + 16 * n
def Off.BAT_STR_VAL (n : Nat) : Nat := 0x40C + 16 * n
def Off.BAT_STR_HELD (n : Nat) : Nat := 0x800 + 4 * n
def Off.AQE_AQE_CFG : Nat := 0x100
def Off.AQE_AQE_CMD : Nat := 0x104
def Off.AQE_AQE_STAT : Nat := 0x108
def Off.AQE_RSEQ_NEXT : Nat := 0x10C
def Off.AQE_SEG_COUNTS : Nat := 0x110
def Off.AQE_DCH_SRC (n : Nat) : Nat := 0x120 + 4 * n
def Off.AQE_ANA_SLOT (n : Nat) : Nat := 0x140 + 4 * n
def Off.AQE_TOUT_CFG : Nat := 0x160
def Off.AQE_PROF_A (n : Nat) : Nat := 0x200 + 32 * n
def Off.AQE_PROF_B (n : Nat) : Nat := 0x204 + 32 * n
def Off.AQE_PROF_C (n : Nat) : Nat := 0x208 + 32 * n
def Off.AQE_PROF_D (n : Nat) : Nat := 0x20c + 32 * n
def Off.AQE_PROF_E (n : Nat) : Nat := 0x210 + 32 * n
def Off.AQE_SEG_SEL : Nat := 0x600
def Off.AQE_SEG_INFO : Nat := 0x604
def Off.AQE_SEG_CMD : Nat := 0x608
def Off.AQE_SEG_WIN (n : Nat) : Nat := 0x800 + 4 * n
def Off.MEAS_MEAS_CFG : Nat := 0x100
def Off.MEAS_RES_VAL : Nat := 0x110
def Off.MEAS_RES_INFO : Nat := 0x114
def Off.MEAS_RES_RSEQ : Nat := 0x118
def Off.USBH_USBH_CFG : Nat := 0x100
def Off.USBH_VID : Nat := 0x104
def Off.USBH_PID : Nat := 0x108
def Off.USBH_UP_STAT : Nat := 0x110
def Off.USBH_FRAME : Nat := 0x114
def Off.USBH_PORT_STAT (n : Nat) : Nat := 0x120 + 4 * n
def Off.USBH_TT_STAT : Nat := 0x130
def Off.LMF_LMF_CFG : Nat := 0x100
def Off.LMF_LMF_CMD : Nat := 0x104
def Off.LMF_SEQ_STAT : Nat := 0x108
def Off.LMF_BUF_STAT : Nat := 0x10C
def Off.LMF_HALT_STAT : Nat := 0x110
def Off.LMF_WR_STATUS : Nat := 0x114
def Off.LMF_EP2_STAT : Nat := 0x118
def Off.HKP_MBOX_CFG : Nat := 0x100
def Off.HKP_MBOX_STAT : Nat := 0x104
def Off.HKP_HKP_STAT : Nat := 0x108
def Off.HKP_IMG_STAT : Nat := 0x10C

/-- The register row that covers an offset of a block's pages, with the index of the register within the row. -/
def rowAt (b : Block) (off : Nat) : Option (RegRow × Nat) :=
  ((commonRows ++ blockRows b).find? fun r =>
      decide (r.off ≤ off ∧ off < r.off + r.count * r.stride ∧ (off - r.off) % r.stride = 0 ∧
        ¬ (b = .adc ∧ 0x200 ≤ off ∧ 16 < off % 32))).map
    fun r => (r, (off - r.off) / r.stride)

/-- The reset value a row's fields spell. -/
def rowReset (r : RegRow) : Word := r.flds.foldl (fun w f => w ||| Word.place f.msb f.lsb f.reset) 0

/-- The bits of a row's fields of one access type. -/
def accMask (a : Acc) (r : RegRow) : Word :=
  r.flds.foldl (fun w f => if f.acc = a then w ||| Word.mask f.msb f.lsb else w) 0

/-- Every writable field of `v` lies in its stated range (R5). -/
def fieldsInRange (r : RegRow) (v : Word) : Bool :=
  r.flds.all fun f =>
    match f.range with
    | none => true
    | some (lo, hi) => f.acc ≠ .rw && f.acc ≠ .wo || decide (lo ≤ v.fld f.msb f.lsb ∧ v.fld f.msb f.lsb ≤ hi)

/-- The absolute address of a register (R2). -/
def addr (page off : Nat) : Nat := page * 0x1000 + off

/-- The page an address lies in, and its offset there with the two lowest bits ignored (R2). -/
def pageOf (a : Nat) : Nat := a / 0x1000 % 4096
def offOf (a : Nat) : Nat := a % 0x1000 / 4 * 4

/-- Reset values that a register's table cannot give by its field alone: page identity (Table 3.3), PAGE_CAP (R20),
PAGE_OWNER of SYS and SEC (Table 3.5), the TEN00 values of Table 8.5, RXQ_CFG of queues 0 to 4 (Table 5.9), and fused
values, which the implementation fixes. -/
def resetOverride (b : Block) (inst off : Nat) : Option Word :=
  if off = 0x000 then some (BitVec.ofNat 32 (blockPage b * 65536 + inst * 256 + 1))
  else if off = 0x004 then some (BitVec.ofNat 32 (pageCap b))
  else match b with
  | .sys =>
    if off = Off.PAGE_OWNER then some 0x100
    else if off = Off.SYS_SERIAL_LO then some (Config.serial.extractLsb' 0 32)
    else if off = Off.SYS_SERIAL_HI then some (Config.serial.extractLsb' 32 32)
    else none
  | .sec => if off = Off.PAGE_OWNER then some 0x100 else none
  | .mac =>
    if off = Off.MAC_PORT_MAC_LO then some ((Config.fusedPortMac inst).extractLsb' 0 32)
    else if off = Off.MAC_PORT_MAC_HI then some ((Config.fusedPortMac inst).extractLsb' 32 16 |>.zeroExtend 32)
    else if 0x140 ≤ off ∧ off < 0x168 ∧ off % 8 = 0 then some 0x04000040
    else none
  | .ten =>
    if inst = 0 ∧ off = Off.TEN_TEN_CFG then some 0x00100187
    else if inst = 0 ∧ off = Off.TEN_OPTAG_QUOTA then some 256
    else if inst = 0 ∧ off = Off.TEN_OPTAG_RSV then some 64
    else if inst ≠ 0 ∧ 0x300 ≤ off then some 0
    else none
  | .usbh => if off = Off.USBH_VID then some (Config.usbVendor.zeroExtend 32) else none
  | _ => none

/-- The reset value of the register at an absolute address; reserved pages and offsets read 0 (R4, R6). -/
def regReset (a : Nat) : Word :=
  match blockOf (pageOf a) with
  | none => 0
  | some b =>
    match resetOverride b (pageOf a - blockPage b) (offOf a) with
    | some w => w
    | none =>
      match rowAt b (offOf a) with
      | none => 0
      | some (r, _) => rowReset r

/-- The low-word offset of the counter pair that an offset of a block's page belongs to (R61), if there is one. -/
def counterAt (b : Block) (off : Nat) : Option Nat :=
  if lastCounter b ≠ 0 ∧ 0x040 ≤ off ∧ off < lastCounter b + 8 then some (off / 8 * 8)
  else if b = .evf ∧ 0xA00 ≤ off ∧ off < 0xA00 + 32 * 48 then some (off / 8 * 8)
  else none

end Sys2Proof.Machine
end

