-- ==== Sys2Proof/Machine/State.lean ====
section
/-! DEFINITION. Machine/State.lean: every piece of state the manual gives LH-96, as plain data, and the machine right
after reset. Registers stand in ONE sparse store keyed by absolute address (R2); an unlisted register reads its reset
value (Machine/RegTable.lean). The queues, engines and stores behind the registers are the structures below. A Fleet
Time instant is held as one number of nanoseconds, seconds × 1,000,000,000 + nanoseconds (R26). -/

namespace Sys2Proof.Machine

/-- Why the model stops. No command of this block stops in a fault: the manual gives every command an effect or says
that it is ignored, rejected or dropped. Nothing raises `stuck`; it stands so that the type is inhabited (safe). -/
inductive Fault where
  | stuck
  deriving DecidableEq, Repr

/-- Why a command has no meaning. `notModelled` is raised only by an arm of `exec` that names a command this model does
not give a meaning to (safe: the machine stops). -/
inductive Refusal where
  | notModelled (mnemonic : String)
  deriving DecidableEq, Repr

/-! ## Registers, counters, interrupts (chapter 03) -/

/-- One page × destination of R81: its hold-off timer, the owed mark, and the stamp of the earliest set not yet
delivered (R82: Fleet Time in ns, or the AON tick on AON pages). -/
structure HoldOff where
  running : Bool := false
  owed : Bool := false
  first : Option Nat := none
  deriving DecidableEq, Repr

/-- A delivery of R82: the page, the snapshot of (IRQ_FLAG AND IRQ_EN), and the stamp it carries. -/
structure Delivery where
  page : Nat
  flags : Word
  stamp : Nat
  deriving DecidableEq, Repr

/-- What a path was answered for its latest register access: the code of R68 step 2 (0 = served) and the value. -/
structure AccResult where
  code : Nat := 0
  value : Word := 0
  deriving DecidableEq, Repr

/-- A key command or revocation in progress (R87, R90). -/
inductive KeyOp where
  | load (slot : Nat) (key : List Byte)
  | generate (slot : Nat)
  | zeroize (slot : Nat)
  | check (slot : Nat)
  | revoke (key : Nat) (blow : Bool)
  deriving DecidableEq, Repr

/-- The SEC block behind its page (R86 to R90). -/
structure SecState where
  /-- key slots 0 to 128: a listed slot holds a key (VALID = 1) -/
  slots : Store (List Byte) := []
  /-- KS_DATA0–15 as written (write-only) -/
  ksData : Store Word := []
  /-- SESS_RESP0–3 as last written (R88) -/
  sessResp : Store Word := []
  /-- KCV of KS_STAT, from the latest CHECK -/
  kcv : Nat := 0
  /-- the command behind KS_STAT BUSY -/
  busy : Option KeyOp := none
  /-- the latest nonce while it is fresh, and the path that drew it (R89) -/
  nonce : Option (Path × List Byte) := none
  /-- the LMF secure session is open -/
  session : Bool := false
  /-- the random source reported a fault at the end of the latest key command (R87) -/
  rngFault : Bool := false
  /-- failures in a row (kept in the AON island) -/
  failures : Nat := 0
  /-- the 60 s lockout runs (kept in the AON island) -/
  lockout : Bool := false
  /-- revocation fuses blown, bit k for hash k -/
  revoked : BitVec 4 := 0
  /-- the fused boot key hashes 0 to 3 (R107) -/
  bootKeys : Store (List Byte) := []
  deriving DecidableEq, Repr

/-! ## Clocks, Fleet Time, the Timed Action Table (chapter 02) -/

/-- The PLLs and the reference (R25), and the correlation tagger (R39). -/
structure ClkState where
  coreLock : Bool := false
  aonLock : Bool := false
  refPresent : Bool := true
  /-- nanoseconds spent in free run since reset (CLK_HOLD FREE_US, 1/1,000) -/
  freeNs : Nat := 0
  /-- the interpolating tagger recalibrates and tags COARSE (R39) -/
  recal : Bool := false
  /-- die temperature at the last calibration, °C -/
  calTemp : Int := 0
  deriving DecidableEq, Repr

/-- The states of Table 2.1. -/
inductive FtMode where
  | unset | free | tsync | ptp | holdover
  deriving DecidableEq, Repr

/-- What the settle or the Harvest writes of Fleet Time (R31): the final counter value and the PARK pair. -/
structure FtJournal where
  ns : Nat
  /-- the fraction and residue below the nanoseconds -/
  sub : Nat := 0
  tick : Nat
  mode : FtMode
  stepCount : Nat
  deriving DecidableEq, Repr

/-- One correlation pair of the ring (Table 2.8). -/
structure CorrPair where
  tick : Nat
  phase : Nat
  coarse : Bool
  seeded : Bool
  src : Nat
  mode : FtMode
  stepCount : Nat
  seq : Nat
  ns : Nat
  frac : Nat
  deriving DecidableEq, Repr

/-- Fleet Time and synchronisation. -/
structure FtState where
  /-- the counter in whole nanoseconds (48-bit seconds × 10⁹ + nanoseconds) -/
  ns : Nat := 0
  /-- the 16-bit fraction and the 16-bit residue below it (R26) -/
  sub : Nat := 0
  mode : FtMode := .unset
  seeded : Bool := false
  stepCount : Nat := 0
  journal : Option FtJournal := none
  /-- the correlation ring: entry index ↦ pair (R41) -/
  ring : Store CorrPair := []
  ringNext : Nat := 0
  ringWrapped : Bool := false
  pairSeq : Nat := 0
  /-- the latest TSYNC_IN capture, ns -/
  cap : Nat := 0
  /-- consecutive good captures (R36) -/
  goodRun : Nat := 0
  /-- the servo's count of consecutive Sync intervals within LOCK_THRESH (R34) -/
  lockRun : Nat := 0
  /-- a two-step Sync whose Follow_Up the servo awaits: port, sequenceId, its receive stamp and correction in 2⁻¹⁶ ns -/
  syncHeld : Option (Nat × Nat × Nat × Int) := none
  /-- the TSYNC_OUT pulse is high (R37) -/
  outHigh : Bool := false
  /-- AON tag (tick × 32 + phase) of the latest TSYNC_IN edge since the AON power-on reset (R42) -/
  lastTsyncTag : Option Nat := none
  /-- TSYNC_WINDOW as copied into the island at the settle or Harvest (R42) -/
  parkWindow : Nat := 100
  /-- good edges since PARK entry (R42) -/
  parkGood : Nat := 0
  deriving DecidableEq, Repr

/-- The states of a table entry. -/
inductive TatStatus where
  | empty | armed | done | err | cancelled
  deriving DecidableEq, Repr

/-- One entry of the Timed Action Table (R44). -/
structure TatEntry where
  t : Nat := 0
  kind : Nat := 0
  argLo : Word := 0
  argHi : Word := 0
  periodMs : Nat := 0
  actAs : Nat := 0
  sec : Bool := false
  persist : Bool := false
  skipLate : Bool := false
  status : TatStatus := .empty
  missed : Nat := 0
  /-- its T was passed by a step or set (STEPPED, R52) -/
  stepped : Bool := false
  /-- its T passed without evaluation at T (R52) -/
  late : Bool := false
  deriving DecidableEq, Repr

/-- One fire record (R55). -/
structure FireRec where
  idx : Nat
  late : Bool
  skipped : Bool
  stepped : Bool
  err : Bool
  missed : Nat
  ns : Nat
  kind : Nat
  seq : Nat
  deriving DecidableEq, Repr

/-- A REG_WRITE action on its way to an AON page, with what its fire record needs when the outcome is known (R47). -/
structure AonAction where
  idx : Nat
  address : Nat
  value : Word
  actAs : Nat
  sec : Bool
  firedNs : Nat
  late : Bool
  stepped : Bool
  missed : Nat
  deriving DecidableEq, Repr

/-- An INTERVAL_CLOSE on its way to the AON island (R377). -/
structure CloseAction where
  mask : Word
  tenant : Nat
  firedNs : Nat
  late : Bool
  /-- Fleet Time state and step count of the firing cycle -/
  mode : Nat
  step : Nat
  deriving DecidableEq, Repr


/-- The Timed Action Table. -/
structure TatState where
  entries : Store TatEntry := []
  ring : Store FireRec := []
  ringNext : Nat := 0
  fireSeq : Nat := 0
  last : Option FireRec := none
  /-- evaluation has been paused since the last lateness pass, so that a pass is due when the pause ends (R53) -/
  passDue : Bool := true
  /-- the persistent entries of this BOOT are loaded (R53, R111) -/
  loaded : Bool := false
  aonWrites : List AonAction := []
  closes : List CloseAction := []

  /-- AQE_ARM actions on their way to the island: the profile and the entry's LATE flag (R425) -/
  arms : List (Nat × Bool) := []
  /-- fire records also written into the TC0 event log (R55), newest last -/
  eventLog : List FireRec := []
  deriving DecidableEq, Repr

/-! ## Power, reset, start-up (chapter 04) -/

/-- The power states of Table 1.2. -/
inductive PState where
  | off | park | boot | run | harvest
  deriving DecidableEq, Repr

/-- What the power handshake of R96 waits for. -/
inductive BootWait where
  | none | aonPll | offMin | pgood | pll | retry | hold
  deriving DecidableEq, Repr

/-- A settle in progress (R112, R113). -/
structure Settle where
  warm : Bool
  /-- PWR_CMD PARK, RST_CMD WARM asked for it (PAGE_STAT BUSY, R61) -/
  byPwr : Bool := false
  byRst : Bool := false
  /-- the drain limit has passed (step 2 done) -/
  drained : Bool := false
  /-- the AON tick at step 1, from which its duration is counted -/
  startTick : Nat := 0
  /-- a wake source fired during this park settle (R115) -/
  woken : Bool := false
  deriving DecidableEq, Repr

/-- How the store was last shut down, as its journals show (RST_CAUSE LAST_DOWN, R313). -/
inductive LastDown where
  | none | settle | harvest | unclean
  deriving DecidableEq, Repr

/-- Power and reset. -/
structure PwrState where
  state : PState := .off
  /-- the AON power-on reset is asserted (R94) -/
  porHeld : Bool := true
  /-- the AON power-on reset in force or deferred: by POR_N (true) or by VDD_AON (false) -/
  porByPin : Bool := false
  /-- an AON power-on reset that R95 defers until the Harvest has ended -/
  porDeferred : Bool := false
  straps : BitVec 5 := 0
  corePwrEn : Bool := false
  pgood : Bool := false
  resetN : Bool := false
  wait : BootWait := .none
  attempts : Nat := 0
  /-- wake sources latched and not yet acted on, RST_CAUSE order (R10) -/
  wakeLatch : BitVec 5 := 0
  /-- the wake sources that began this BOOT, until RST_CAUSE is written (R119) -/
  bootWake : BitVec 5 := 0
  settle : Option Settle := none
  /-- cause bits [6:0] that the next BOOT writes into RST_CAUSE -/
  cause : BitVec 7 := 0
  watchdog : Bool := false
  /-- microseconds since BOOT at the latest start or kick of the watchdog (R117) -/
  wdtFrom : Nat := 0
  lastDown : LastDown := .none
  /-- what stage MAP must recover from in this BOOT (R314) -/
  needRecovery : Bool := false
  /-- an accepted image runs on the HKP -/
  image : Bool := false
  /-- images tried by the boot ROM in this BOOT, and the ROM has reached USB (R109) -/
  tried : Nat := 0
  usbWait : Bool := false
  /-- the NAND population is discovered in this BOOT (stage NAND done) -/
  discovered : Bool := false
  /-- the DRAM and NAND training values kept in retained AON SRAM (R113 step 6) -/
  trainingKept : Bool := false
  /-- SETTLE_SLOW is owed to the PWR page of the next RUN (R114) -/
  slowOwed : Bool := false
  sysPwrdn : Bool := false
  deriving DecidableEq, Repr

/-! ## Event fabric (chapter 16) -/

/-- An offer between its firing cycle and its taking cycle (R448). -/
structure Offer where
  ch : Nat
  consumer : Nat
  /-- the channel's home domain is AON -/
  aonHome : Bool
  /-- the CORE cycle of its taking cycle's start, as the model's clock counts them (Table 16.4) -/
  due : Nat := 0
  deriving DecidableEq, Repr

/-- What a capture unit holds (R461). -/
structure Capture where
  value : Nat := 0
  ch : Nat := 0
  missed : Bool := false
  valid : Bool := false
  deriving DecidableEq, Repr

/-- The event fabric behind its page. -/
structure EvfState where
  offers : List Offer := []
  /-- of each channel, the cycle of its home domain in which it formed its latest event (R446) -/
  formed : Store Nat := []
  /-- FCAP0–3 -/
  fcap : Store Capture := []
  /-- ACAP0–3 -/
  acap : Store Capture := []
  deriving DecidableEq, Repr

/-! ## Ethernet ports (chapter 05) -/

/-- The frame in reception at a port, past stage 1 (Table 5.5): what stage 1 decided. -/
structure RxPending where
  head : List Byte
  /-- the receive stamp (R143), Fleet Time in ns -/
  stamp : Nat
  allowance : Nat
  /-- 1 PAUSE, 2 PFC, 3 another MAC control frame (R132), 0 none -/
  ctl : Nat
  /-- the filter stage dropped it (R125, R132, R133) -/
  filtered : Bool
  /-- steered to a DISCARD queue -/
  discard : Bool
  /-- the queue that admitted it, with the cells set aside (R138); none when admission failed -/
  admitted : Option (Nat × Nat)
  deriving DecidableEq, Repr

/-- A complete frame in a receive queue. -/
structure RxFrame where
  bytes : List Byte
  stamp : Nat
  cells : Nat
  /-- order of release among all frames (R220) -/
  order : Nat := 0
  /-- RUNT, OVERSIZE, CODE_ERR, FCS_ERR of a bad frame that DELIVER_BAD delivered, bits 0 to 3 -/
  flags : BitVec 4 := 0
  deriving DecidableEq, Repr

/-- How a PTP frame is stamped on leaving (R144). -/
inductive TxStamp where
  | none
  | twoStep
  | oneStepSync
  /-- a one-step Pdelay_Resp with the receive stamp the HKP supplies -/
  | oneStepPdelay (rxNs : Nat)
  deriving DecidableEq, Repr

/-- A frame waiting for transmission, without its FCS unless `fcsPass`. -/
structure TxFrame where
  /-- class: 0 Top, 1 Heart, 2 Base, 3 PTP, 4 management (the order of TXCLS_PRI) -/
  cls : Nat
  /-- the tenant whose work it is, for the arbitration of R221 -/
  tenant : Nat := 0
  bytes : List Byte
  fcsPass : Bool := false
  stamp : TxStamp := .none
  deriving DecidableEq, Repr

/-- The frame in transmission: a queued frame, or a control frame built at its start. -/
structure TxCurrent where
  frame : TxFrame
  /-- the whole frame as it leaves: S-tag, padding, stamp and FCS included (R125, R130, R144) -/
  bytes : List Byte
  /-- 0 an ordinary frame, 1 PAUSE, 2 PFC -/
  ctl : Nat
  /-- its transmit stamp (R143), ns -/
  startNs : Nat
  /-- its length on the wire (R126) -/
  length : Nat
  deriving DecidableEq, Repr

/-- An entry of the transmit stamp FIFO (R144). -/
structure TxTs where
  ns : Nat
  msgType : Nat
  seqId : Nat
  domain : Nat
  deriving DecidableEq, Repr

/-- The deficit round-robin state of one arbitration instance (R221, R223). -/
structure Drr where
  /-- deficits of the Heart and Base notes, and of tenants -/
  noteDef : Store Int := []
  tenDef : Store Int := []
  /-- the note whose turn it is (1 Heart, 2 Base, 3 upkeep; 0 none), and the tenants served last: Top, Heart, Base -/
  turn : Nat := 0
  last : Store Nat := []
  /-- by note, the tenant whose turn it is, plus 1 -/
  tenTurn : Store Nat := []
  deriving DecidableEq, Repr

/-- One port. -/
structure PortState where
  link : Bool := false
  anDone : Bool := false
  speed : Nat := 0
  fecLock : Bool := false
  localFault : Bool := false
  remoteFault : Bool := false
  rx : Option RxPending := none
  /-- receive queue ↦ complete frames, oldest first -/
  queues : Store (List RxFrame) := []
  /-- queues in XOFF (R141) -/
  xoff : List Nat := []
  /-- a received PAUSE stop runs; priorities stopped by PFC (R140) -/
  paused : Bool := false
  pfcPaused : BitVec 8 := 0
  /-- by priority (bit 0 alone with PAUSE): a control frame is due, and the peer has been told of XOFF (R141) -/
  due : BitVec 8 := 0
  told : BitVec 8 := 0
  tx : List TxFrame := []
  cur : Option TxCurrent := none
  /-- the latest frame that left whole, with the transmit stamp returned to its source (R143) -/
  sent : Option TxCurrent := none
  /-- the latest frame that a PTP or MGMT queue handed to the HKP, with its receive stamp (R136, R143) -/
  toHkp : Option (Nat × RxFrame) := none
  tsFifo : List TxTs := []
  drr : Drr := {}
  deriving DecidableEq, Repr

/-- The port snapshot of R148 and what the SAVE of R150 keeps with it. -/
structure SnapState where
  /-- the latest snapshot journaled: (absolute address, value) -/
  saved : Option (Store Word) := none
  saving : Option (Store Word) := none
  restored : Bool := false
  seq : Nat := 0
  deriving DecidableEq, Repr

/-! ## Fratra streams and operations (chapters 06, 07) -/

/-- A final response as the cache holds it (R175). -/
structure Cached where
  seq : Word
  opcode : Nat
  optag : Nat
  status : Nat
  version : Nat := 0
  offset : Nat := 0
  total : Nat := 0
  mirrored : Bool := false
  /-- the Fleet Time of the completion, as Table 6.4 lays it out (R16, R158) -/
  ext : List Byte := []
  /-- the request had FT_EXT = 1, so its responses carry it -/
  showExt : Bool := false
  deriving DecidableEq, Repr

/-- A fragment of a request, its bytes placed as it arrived (R170). -/
structure Piece where
  seq : Word
  offset : Nat
  last : Bool
  bytes : List Byte
  deriving DecidableEq, Repr

/-- A stream context (R172). SEQ values compare in serial arithmetic. -/
structure StreamCtx where
  id : StreamId
  base : Word
  limit : Word
  /-- N, the highest SEQ up to which every SEQ has been received (R176) -/
  n : Word
  /-- the SEQs received above N, each with its receive stamp where its frame carried an FT extension -/
  got : List (Word × Option Nat) := []
  /-- the settled SEQs from BASE upward -/
  settled : List Word := []
  /-- SEQ ↦ number of the operation it belongs to, for the cache and acceptance ranges -/
  names : List (Word × Nat) := []
  /-- operation number ↦ its cached final response -/
  finals : List (Nat × Cached) := []
  /-- OPTAG ↦ operation decided before its last frame (R169) -/
  residue : List (Nat × Nat) := []
  /-- a change of LIMIT, or the end of a hold, not yet carried by a response (R178) -/
  owed : Bool := false
  /-- a hold was in force on the stream at the end of the last command -/
  held : Bool := false
  /-- the receive stamp of frame N, when it carried an FT extension (R158) -/
  nStamp : Option Nat := none
  /-- carriage and verifying key of the latest frame, for responses the stream sends unasked -/
  carriage : Carriage
  auth : Option (List Byte) := none
  deriving DecidableEq, Repr

/-- Where an operation stands. -/
inductive OpPhase where
  /-- frames still to come -/
  | assembling
  /-- every frame received, not yet at its commit or read point -/
  | ready
  /-- committed, waiting for the twin (R192) with its final response -/
  | waitTwin (c : Cached)
  /-- waiting for the HKP mailbox reply (R479) -/
  | mailbox
  deriving DecidableEq, Repr

/-- An operation in flight, which holds one op tag (R203). -/
structure OpState where
  id : StreamId
  carriage : Carriage
  opcode : Nat
  optag : Nat
  options : Word
  key : List Byte
  version : Nat
  offset : Nat
  total : Nat
  /-- the FT extension of the request, ns -/
  ext : Option Nat
  /-- its fragments, by rising SEQ; their bytes until the value is whole -/
  pieces : List Piece := []
  /-- the whole value -/
  data : List Byte := []
  /-- SEQ of its highest frame -/
  lastSeq : Word
  /-- its first frame passed step 12 of Table 6.8: it holds an op tag (R203) -/
  admitted : Bool := true
  /-- the Fleet Time of admission (R185) -/
  admitNs : Nat
  /-- the place of its last frame's admission among all frames, once that has come (R190) -/
  order : Option Nat := none
  /-- charge reserved (R199) -/
  reserved : Nat := 0
  /-- the key that verified the frame, and the secure attribute (R160) -/
  auth : Option (List Byte) := none
  secure : Bool := false
  /-- ALIAS_SWAP_AT: the VERSION that answers the stage made at admission (R194) -/
  staged : Option Nat := none
  /-- ALIAS_SWAP_AT: the stage was sent to the twin, and whether the twin has it (R194 step 4) -/
  twinStage : Option Bool := none
  phase : OpPhase := .assembling
  deriving DecidableEq, Repr

/-- A staged swap (R194, R343). -/
structure Swap where
  tenant : Nat
  aliasKey : List Byte
  target : List Byte
  ident : Nat
  ns : Nat
  skipLate : Bool
  /-- the Fleet Time at which the first frame of its operation was admitted (R185) -/
  admitNs : Nat := 0
  /-- its hardware-pool entry; none for an unpooled swap (R343) -/
  entry : Option Nat
  /-- the lead's commit version, when it arrived before this twin's entry fired (R197) -/
  leadVer : Option Nat := none
  deriving DecidableEq, Repr

/-- An issued SCAN cursor: valid for its tenant and prefix, for ever (R202). -/
structure Cursor where
  value : BitVec 64
  tenant : Nat
  keyPrefix : List Byte
  after : List Byte
  deriving DecidableEq, Repr

/-- The incident window of R201. -/
structure Incident where
  openNow : Bool := false
  tenant : Nat := 0
  startNs : Int := 0
  endNs : Nat := 0
  events : Nat := 0
  deriving DecidableEq, Repr

/-- One tenant context behind its page (R210). -/
structure Tenant where
  verCtr : Nat := 0
  /-- keys in ascending byte order of their names -/
  keys : List KeyEntry := []
  aesKcv : Nat := 0
  /-- the hold of R231 is in force -/
  keyHold : Bool := false
  rstBusy : Bool := false
  purgeBusy : Bool := false
  notifySeq : Nat := 0
  /-- the Fleet Time second in which key events are counted, and how many were sent in it (R227) -/
  keyEvSec : Nat := 0
  keyEvSent : Nat := 0
  /-- client address ↦ port of its last admitted request since BOOT (R179) -/
  seenAt : List (BitVec 48 × Nat) := []
  /-- token buckets of the four point kinds: (balance in bytes, µs count at which it was brought up to date) (R222) -/
  tokens : Store (Int × Nat) := []
  /-- rotation pointer, open shared sheaf, present pack grain of it (R247, R254) -/
  rotPtr : Nat := 0
  openSheaf : Option Nat := none
  packGrain : Option (Nat × Nat) := none
  deriving DecidableEq, Repr

/-- The Fratra engine and the key-value store. -/
structure FratraState where
  streams : List StreamCtx := []
  ops : Store OpState := []
  nextOp : Nat := 0
  nextOrder : Nat := 0
  /-- the hold of a settle or of the power-fail freeze (R177) -/
  hold : Bool := false
  tenants : Store Tenant := []
  swaps : List Swap := []
  nextSwap : Nat := 1
  /-- swaps committed on this follower whose version the lead has still to send: tenant, identifier, alias (R197) -/
  timed : List (Nat × Nat × List Byte) := []
  cursors : List Cursor := []
  incident : Incident := {}
  /-- op tags in use at most since OPTAGS_PEAK was last read -/
  peak : Nat := 0
  /-- microseconds since BOOT, and CORE cycles into the present one, for the token buckets -/
  coreUs : Nat := 0
  coreSub : Nat := 0
  /-- deficits at the Accord VC0 and VC2 points, by channel -/
  accDrr : Store Drr := []
  deriving DecidableEq, Repr

/-! ## Flash, DRAM and health (chapters 09, 10) -/

/-- Where a grain lies: the LUN, the data block and the grain's position in the block, in the order programmed. -/
structure Loc where
  lun : Nat
  block : Nat
  pos : Nat
  deriving DecidableEq, Repr

/-- A grain of a logical sheaf (R246). -/
structure GrainRef where
  sheaf : Nat
  grain : Nat
  deriving DecidableEq, Repr

/-- A logical sheaf that holds data (R247, R249). -/
structure Sheaf where
  tenant : Nat
  /-- it belongs to one value alone -/
  whole : Bool
  /-- grains allocated so far, from grain 0 -/
  alloc : Nat
  /-- 0 not yet in flash, 1 SHEAF, 2 GRAIN -/
  mapping : Nat := 0
  /-- SHEAF: the slot; its grain i lies at position pos + i -/
  slot : Option Loc := none
  /-- GRAIN: grain ↦ its location -/
  grains : Store Loc := []
  /-- the grain region is resident (R257), and when it was last accessed -/
  resident : Bool := false
  access : Nat := 0
  /-- the rotation position of its slot, for a whole sheaf (R254) -/
  rot : Nat := 0
  /-- grains in the write buffer ↦ number of the write that left them dirty -/
  dirty : Store Nat := []
  /-- allocated grains that no key uses any longer -/
  dead : List Nat := []
  /-- pack grains ↦ the 64-byte slots in use -/
  packs : Store (BitVec 64) := []
  /-- times of the partial updates (R250), newest first -/
  partials : List Nat := []
  lastWrite : Nat := 0
  /-- dirty grains that no program writes yet ↦ the AON tick at which they entered the buffer (R253) -/
  since : Store Nat := []
  /-- the fold of it under way, by number (R251) -/
  folding : Option Nat := none
  deriving DecidableEq, Repr

/-- A data block that is not free. -/
structure FlashBlock where
  /-- 1 open, 2 closed, 3 retired -/
  use : Nat
  /-- Table 11.3 KIND: 1 sheaf, 2 grain, 3 gleaning destination -/
  kind : Nat
  esn : Nat := 0
  closedNs : Nat := 0
  reads : Nat := 0
  hint : Nat := 0
  refs : List GrainRef := []
  deriving DecidableEq, Repr

/-- A page of a block: a data block, or a journal block by its good-block number (R275). -/
structure PageRef where
  lun : Nat
  journal : Bool
  block : Nat
  page : Nat
  deriving DecidableEq, Repr

/-- A move of a block's live data: gleaning, refresh, wear, or relocation after a program failure. -/
structure MoveTask where
  /-- 1 relocation, 2 refresh, 3 gleaning, 5 wear (the kinds of R260) -/
  kind : Nat
  src : Nat
  /-- grains still to move, in block order -/
  left : List GrainRef
  deriving DecidableEq, Repr

/-- A LUN record, in the first good block of the LUN (Table 9.3): the geometry, the part's serial number, the format's number,
and the good block at which an image copy begins. -/
structure LunRecord where
  part : Part
  good : Nat
  serial : BitVec 64
  format : Nat
  image : Option Nat
  deriving DecidableEq, Repr

/-- One LUN. -/
structure Lun where
  part : Part
  excluded : Bool := false
  failed : Bool := false
  /-- good blocks at format (G) -/
  good : Nat := 0
  /-- data blocks listed are not free: block number ↦ block -/
  blocks : Store FlashBlock := []
  /-- erase counts of data blocks -/
  eraseCnt : Store Nat := []
  /-- ESN of the erase that made the block free -/
  freeEsn : Store Nat := []
  /-- upkeep state: 0 IDLE, 1 BACKGROUND, 2 URGENT, 3 FLOOR -/
  upkeep : Nat := 0
  /-- the move that is served, and those that wait for it by rising kind (R260) -/
  move : Option MoveTask := none
  moveQueue : List MoveTask := []
  /-- blocks queued for refresh, until their erase (R273) -/
  refreshQ : List Nat := []
  /-- a wear move is pending (R277) -/
  wearPending : Bool := false
  /-- erases in progress: block ↦ ESN of the open intent -/
  erasing : Store Nat := []
  /-- erases that a channel in training holds in the LUN's queue (R239) -/
  heldErase : List Nat := []
  /-- deficits at the LUN's die queue (R223) -/
  drr : Drr := {}
  record : Option LunRecord := none
  /-- read counters of the journal blocks (R272) -/
  jreads : Store Nat := []
  timeouts : Nat := 0
  /-- blocks of the consecutive failed program and erase operations -/
  failRun : List Nat := []
  /-- codewords read, and (codeword number, block) of the uncorrectable ones among the last 1,048,576 -/
  cwRead : Nat := 0
  uncorr : List (Nat × Nat) := []
  deriving DecidableEq, Repr

/-- A program in progress, by number. -/
structure Prog where
  lun : Nat
  block : Nat
  /-- position of its first grain -/
  pos : Nat
  refs : List GrainRef
  /-- the whole sheaf's slot, when it writes one -/
  slotOf : Option Nat := none
  /-- the write numbers of the grains it writes, so that a newer write keeps the grain dirty -/
  stamps : List Nat := []
  /-- the fold whose slot it is (R251) -/
  fold : Option Nat := none
  /-- a channel in training holds it in the LUN's queue (R239) -/
  held : Bool := false
  deriving DecidableEq, Repr

/-- A NAND channel. -/
structure ChanState where
  iface : Nat := 0
  rate : Nat := 0
  trained : Bool := false
  training : Bool := false
  /-- training failed at BOOT, so that its LUNs stay out (R239) -/
  failedAtBoot : Bool := false
  deriving DecidableEq, Repr

/-- A health-log event (R290). -/
structure HlogEvent where
  num : Nat
  cause : Nat
  lun : Nat
  ns : Nat
  mode : Nat
  step : Nat
  affected : Nat
  /-- part 1 onward as written: bytes of each part -/
  parts : List (List Byte) := []
  /-- the scan of R286 runs for this event's die -/
  identRunning : Bool := false
  deriving DecidableEq, Repr

/-- Health counters of the report (Table 10.5). -/
structure HealthState where
  hist : Store Nat := []
  softUses : Nat := 0
  uncorr : Nat := 0
  grownBad : Nat := 0
  failedDies : Nat := 0
  tempNow : Int := 0
  minuteMax : Option Int := none
  /-- samples taken in the present minute -/
  samples : Nat := 0
  tempBins : Store Nat := []
  tempMax : Int := -40
  minAbove : Nat := 0
  events : List HlogEvent := []
  eventNum : Nat := 0
  /-- keys asked of the twin and not yet answered: (tenant, version) -/
  asked : List (Nat × Nat) := []
  waitingTwin : Bool := false
  /-- a healing period runs (HEAL_DONE, R297) -/
  healing : Bool := false
  patrolStart : Nat := 0
  patrolPasses : Nat := 0
  patrolOverdue : Bool := false
  /-- pages that the present pass has read -/
  patrolRead : List PageRef := []
  lastUe : Option (Nat × Nat × Nat × Nat) := none
  deriving DecidableEq, Repr

/-- A record of the journal pool (R243): an erase intent and its completion, a retired block, a failed die, a grain region, a
checkpoint with its shutdown, recovery or Harvest record, the port snapshot. -/
inductive JournalRec where
  | intent (lun block esn : Nat)
  | erased (lun block esn : Nat)
  | retired (lun block : Nat)
  | failed (lun : Nat)
  | region (sheaf : Nat)
  | shutdown
  | recovered (hseq : Nat)
  | harvest (hseq : Nat)
  | snapshot
  deriving DecidableEq, Repr

/-- A record with the (LUN, good block) of its copies (R280). -/
structure JournalEntry where
  record : JournalRec
  copies : List (Nat × Nat)
  deriving DecidableEq, Repr

/-- The journal pool (R243, R280): the records since the last checkpoint, and the turn of the rotation. -/
structure JournalPool where
  entries : List JournalEntry := []
  turn : Nat := 0
  deriving DecidableEq, Repr

/-- DRAM (R256 to R259). -/
structure DramState where
  gib : Nat := 0
  trained : Bool := false
  derate : Bool := false
  /-- rebuilds of index structures in progress -/
  rebuilding : Nat := 0
  lastAddr : Nat := 0
  deriving DecidableEq, Repr

/-- The flash translation state. -/
structure FtlState where
  luns : Store Lun := []
  chans : Store ChanState := []
  /-- the population has been formatted; figures fixed at format -/
  formatted : Bool := false
  formats : Nat := 0
  hrvBlk : Nat := 0
  pool : JournalPool := {}
  /-- folds begun so far -/
  folds : Nat := 0
  sheaves : Store Sheaf := []
  nextSheaf : Nat := 0
  progs : Store Prog := []
  nextProg : Nat := 0
  /-- writes into the write buffer so far, and reads of grain regions: the order of R253 and R257 -/
  writeSeq : Nat := 0
  grainPtr : Nat := 0
  /-- USABLE as last computed (CAP_CHANGE when it falls) -/
  usable : Nat := 0
  dram : DramState := {}
  health : HealthState := {}
  deriving DecidableEq, Repr

/-! ## Harvest (chapter 11) -/

/-- The done record (R305). -/
structure DoneRec where
  hseq : Nat
  dirty : Nat
  segments : Nat
  dropped : Nat
  /-- journal records written -/
  records : Nat
  vTrip : Nat
  vEnd : Nat
  durUs : Nat
  pair : Option CorrPair
  deriving DecidableEq, Repr

/-- A Harvest in progress. -/
structure HarvestRun where
  startNs : Nat
  dirty : Nat
  segments : Nat
  vTrip : Nat
  dropped : List Nat := []
  /-- program units written again after a failure -/
  rewritten : Nat := 0
  /-- PGOOD_CORE has been lost during this Harvest: the core rails have fallen (R95) -/
  railsFallen : Bool := false
  deriving DecidableEq, Repr

/-- The hold-up bank, the Harvest and what it journals. -/
structure HrvState where
  /-- the bank voltage as last sampled by the island, and as of the latest check, mV -/
  vNow : Nat := 0
  vBank : Nat := 0
  /-- a measurement not yet reported, and the one in force (µF) -/
  cNew : Option Nat := none
  cMeas : Option Nat := none
  hseq : Nat := 0
  esn : Nat := 0
  rateMBs : Nat := 0
  slow : Bool := false
  weak : Bool := false
  run : Option HarvestRun := none
  done : Option DoneRec := none
  lastDur : Nat := 0
  lastKib : Nat := 0
  lastDone : Bool := false
  lastIncomplete : Bool := false
  lastDropped : Nat := 0
  lastMargin : Nat := 0
  reerased : Nat := 0
  emptyFail : Nat := 0
  recovMs : Nat := 0
  recovKind : Nat := 0
  segUncorr : Nat := 0
  /-- the mirror backlog a Harvest journaled (R304) -/
  backlog : List (Nat × List Byte × Nat × Bool) := []
  deriving DecidableEq, Repr
/-! ## Accord twin link (chapter 12) -/

/-- The pair states of Table 12.9, in PAIR order. -/
inductive Pair where
  | alone | joining | paired | catchup | split | isolated | away | foreign
  deriving DecidableEq, Repr

/-- A link request (R330). -/
inductive LinkReq where
  | retrain
  | width (w : Nat)
  deriving DecidableEq, Repr

/-- One lane. -/
structure LaneState where
  locked : Bool := false
  aligned : Bool := false
  inUse : Bool := false
  eqDone : Bool := false
  skew : Nat := 0
  preset : Nat := 0
  eyeH : Nat := 0
  eyeV : Nat := 0
  /-- preset requests of the twin in the present EQUALIZE (at most 8, Table 12.4) -/
  requests : Nat := 0
  deriving DecidableEq, Repr

/-- A sequenced flit kept in the retry buffer until acknowledged (R336). -/
structure HeldFlit where
  fseq : Nat
  vc : Nat
  /-- its 72 bytes, as a replay sends them again -/
  bytes : List Byte := []
  deriving DecidableEq, Repr

/-- What one flit of a message carries: SOM, EOM, the message type where SOM is 1, and the payload bytes used (R334). -/
structure FlitBody where
  som : Bool
  eom : Bool
  mtype : Nat
  payload : List Byte
  deriving DecidableEq, Repr

/-- A 64b/66b block (R326, R333): a control block (sync header 0b10) or a data block (0b01), and its 8 bytes. -/
structure LineBlock where
  ctl : Bool
  bytes : List Byte
  deriving DecidableEq, Repr

/-- A write kept in the mirror backlog until it is acknowledged (R344). -/
structure BacklogOp where
  tenant : Nat
  mseq : Nat
  key : List Byte
  version : Nat
  deleted : Bool
  commitNs : Nat
  /-- the op tag of a write that waits for MIRRORED -/
  waiting : Option Nat
  deriving DecidableEq, Repr

/-- One entry of a divergence set (R354). -/
structure DivEntry where
  key : List Byte
  version : Nat
  epoch : Nat
  deleted : Bool
  /-- the ranges of grains that changed, when the value changed in part: (first grain, grains); none listed: the whole -/
  ranges : List (Nat × Nat) := []
  deriving DecidableEq, Repr

/-- A message handed to the link, not yet sent (Table 12.7). -/
inductive AccMsg where
  | mirror (tenant mseq : Nat) (m : MirrorOp)
  | mirrorAck (tenant mseq version : Nat)
  | leadMap (map : List Byte)
  | notice (kind epoch ns : Nat)
  | incident (tenant ns : Nat)
  | portMacs (macs : List (BitVec 48)) (linkUp : BitVec 4)
  | relay (c : Carriage) (part : List Byte)
  | keyReq (ask : KeyReq)
  | keyData (d : KeyData)
  | divList (tenant : Nat) (full : Bool) (entries : List DivItem)
  | divEnd (tenant count : Nat)
  deriving DecidableEq, Repr

/-- A message whose flits a VC is sending (R338). -/
structure Sending where
  vc : Nat
  msg : AccMsg
  /-- it is served by idle fill (R221) -/
  idle : Bool := false
  /-- its first flit, charged at the selection, is still to be sent -/
  fresh : Bool := true
  /-- its flits still to be sent -/
  left : List FlitBody
  deriving DecidableEq, Repr

/-- The Accord link and the pair. -/
structure AcdState where
  partner : BitVec 64 := 0
  epoch : Nat := 0
  twinEpoch : Nat := 0
  /-- TRAIN of Table 12.4; 0 off -/
  train : Nat := 0
  width : Nat := 0
  rate : Nat := 0
  /-- lanes good, as a mask -/
  good : BitVec 4 := 0
  lanes : Store LaneState := []
  rankConflict : Bool := false
  /-- this end's pending request, and the request both ends follow -/
  reqPending : Option LinkReq := none
  /-- it came from ACD_CMD (PAGE_STAT BUSY, R61) -/
  reqByCmd : Bool := false
  following : Option LinkReq := none
  /-- the link has left ACTIVE and the grace of R348 runs -/
  grace : Bool := false
  /-- this training has met a known or adopted partner in ALIGN -/
  helloOk : Bool := false
  /-- the twin's lanes good, as its TS2 and HELLO say -/
  twinGood : BitVec 4 := 0
  /-- the link has been in DETECT since it was last ACTIVE -/
  viaDetect : Bool := true
  /-- the link has been ACTIVE and no loss has been declared since: its data is preserved (R332, R337) -/
  hadActive : Bool := false
  /-- what the last HELLO said of the twin: (rank, holds keys, knows this side, ADOPT, ADOPT_SRC, serial, MAX_WIDTH) -/
  twin : Option Hello := none
  fseqNext : Nat := 0
  fseqExp : Nat := 0
  /-- discarding until the expected FSEQ arrives (R336) -/
  nakOut : Bool := false
  retry : List HeldFlit := []
  /-- flits to be replayed next, oldest first -/
  replay : List Nat := []
  /-- ticks of the replays of the last millisecond, newest first (R331) -/
  replayTicks : List Nat := []
  credits : Store Nat := []
  /-- credits returned to the twin, cumulative (Table 12.6) -/
  returned : Store Nat := []
  /-- the twin's cumulative returns last seen -/
  seenReturned : Store Nat := []
  /-- VC0 credits withheld while the store cannot take a program (R342) -/
  owedVc0 : Nat := 0
  /-- the message in progress on each VC (R338) -/
  sending : List Sending := []
  /-- the deficit round-robin of VC0 and VC2: the VC whose turn it is, and what is left of its deficit, in flits -/
  vcTurn : Nat := 2
  vcLeft : Nat := 0
  /-- the LINK flit sent last, and the messages whose last flit left with the latest LINK_FLIT_SEND -/
  sentLink : Option LinkFlit := none
  sentMsgs : List AccMsg := []
  /-- data blocks of flits sent that no row has taken yet (R333) -/
  blocks : List LineBlock := []
  /-- rows since the last SKP, the part of a row that the clock has come to, and the row now on the lanes in use -/
  rows : Nat := 0
  rowPhase : Nat := 0
  row : List LineBlock := []
  pair : Pair := .alone
  takenOver : Bool := false
  ethPath : Bool := false
  hbOk : Bool := false
  misses : Nat := 0
  hbSeq : Nat := 0
  ethSeq : Nat := 0
  /-- ADOPT written on this side, with ADOPT_SRC -/
  adopt : Option Bool := none
  joinTimer : Bool := false
  /-- next MSEQ to send, and next MSEQ expected, by tenant -/
  mseqNext : Store Nat := []
  mseqExp : Store Nat := []
  backlog : List BacklogOp := []
  /-- messages handed to the link, oldest first -/
  out : List AccMsg := []
  /-- divergence entries by tenant, and the tenants whose divergence is FULL -/
  div : Store (List DivEntry) := []
  divFull : List Nat := []
  /-- tenants whose list this side has sent and that are not yet resolved -/
  resolving : List Nat := []
  /-- the twin's list received in the resolve phase, by tenant, and whether it was a FULL list -/
  twinDiv : Store (Bool × List DivItem) := []
  /-- tenants whose DIV_END has arrived -/
  listEnded : List Nat := []
  /-- tenants that this pair's reunion has resolved -/
  resolved : List Nat := []
  /-- keys this side receives from a reunion, while HEALING (R357) -/
  toReceive : List (Nat × List Byte) := []
  /-- the twin's free hardware-pool entries as last reported, and stages sent and not yet acknowledged (R343) -/
  poolFree : Nat := 0
  stagesOut : List (Nat × Nat) := []
  /-- the latest LEAD_MAP received -/
  twinMap : List Byte := []
  twinMacs : List (BitVec 48) := []
  twinLinks : BitVec 4 := 0
  /-- ASYNC tenants whose lag has reached ASYNC_LAG_MAX (R344) -/
  lagging : List Nat := []
  /-- handovers in progress (R340): 1 this twin is the new lead, and no MIRROR of the tenant has come since the last
  heartbeat; 2 it is, and one may have; 3 this twin is the old lead -/
  handover : Store Nat := []
  deriving DecidableEq, Repr

/-! ## Always-on sensor hub (chapter 13) -/

/-- A run of the poll sequencer waiting its turn (R365, R366, R370). -/
structure DueRun where
  task : Nat
  /-- the tick it fell due -/
  tick : Nat
  /-- 0 SMBus handler, 1 init task, 2 periodic task: the order in which runs are taken -/
  rank : Nat
  /-- the batch of init runs it belongs to; 0 none (R366) -/
  batch : Nat := 0
  /-- it serves an alert of this bus (R399 step 4) -/
  handlerOf : Option Nat := none
  deriving DecidableEq, Repr

/-- What the sequencer's present step waits for. -/
inductive StepWait where
  | none
  /-- an I2C step waits for its retry after lost arbitration (R397) -/
  | arb
  /-- a UART step waits for data or a frame (R407) -/
  | uart
  /-- an ADC step waits for its conversion (R411) -/
  | adc
  deriving DecidableEq, Repr

/-- The running task: its present step and how many steps it has executed (R369). -/
structure PsqRun where
  task : Nat
  step : Nat
  /-- its words, as they stood when it started -/
  w0 : Word
  w1 : Word
  count : Nat := 0
  wait : StepWait := .none
  /-- retries made after lost arbitration in the present step (R397) -/
  tries : Nat := 0
  /-- the run is an SMBus handler for this bus (R399 step 4) -/
  handlerOf : Option Nat := none
  batch : Nat := 0
  /-- EN was cleared: the run ends after this step (R365) -/
  ending : Bool := false
  deriving DecidableEq, Repr

/-- Filter, decimator and value of one stream (R371). -/
structure StreamState where
  value : Word := 0
  /-- the last inputs, newest first (moving average, median) -/
  hist : List Int := []
  /-- outputs so far since configuration, for the decimator -/
  outs : Nat := 0
  iir : Int := 0
  deriving DecidableEq, Repr

/-- One entry of a batch (Table 13.9): its tick, whether it is a marker, its value. -/
structure BatchEntry where
  tick : Nat
  mark : Bool
  value : Word
  deriving DecidableEq, Repr

/-- A batch, open or closed (R378). -/
structure Batch where
  entries : List BatchEntry
  ringLoss : Bool := false
  cfgChanged : Bool := false
  /-- carried by a Harvest and not in retained SRAM (R382) -/
  carried : Bool := false
  deriving DecidableEq, Repr

/-- The batches of one stream: the open one, the closed ones oldest first, and whether the next carries RING_LOSS. -/
structure StreamBatches where
  open? : Option Batch := none
  closed : List Batch := []
  lossOwed : Bool := false
  /-- the oldest closed batch waits 100 ms after a failed move (R380) -/
  retry : Bool := false
  deriving DecidableEq, Repr

/-- A recogniser's volatile state (R372 to R374). -/
structure RecogState where
  state : Bool := false
  /-- SEQ: the next term to match, and the tick of the latest match -/
  progress : Nat := 0
  matchTick : Nat := 0
  /-- COUNT: ticks of the events counted, oldest first -/
  counted : List Nat := []
  /-- SLOPE: the latest values, newest first -/
  values : List Int := []
  /-- tick of the latest firing -/
  lastFire : Option Nat := none
  deriving DecidableEq, Repr

/-- The counts of one counter group in one AON tick (R377): BOARD and ALIGHT before it, and its increments. -/
structure TickCount where
  board : Word := 0
  alight : Word := 0
  boards : Nat := 0
  alights : Nat := 0
  deriving DecidableEq, Repr

/-- An interval record (Table 13.8). -/
structure IvlRec where
  late : Bool
  harvest : Bool := false
  mask : Word
  tick : Nat
  ns : Nat
  occupancy : Word
  /-- (group, LBOARD, LALIGHT) in ascending group -/
  groups : List (Nat × Word × Word)
  tenant : Nat
  /-- Fleet Time state and step count of the firing cycle -/
  mode : Nat := 0
  step : Nat := 0
  retry : Bool := false
  deriving DecidableEq, Repr

/-- A sillage record (Tables 13.10 and 13.11): its 16 data bytes as far as they are used. -/
structure SillRec where
  type : Nat
  coarse : Bool := false
  incPark : Bool := false
  replayed : Bool := false
  seq : Nat
  tick : Nat
  phase : Nat := 0
  data : List Byte
  deriving DecidableEq, Repr

/-- The sensor hub: AON time, alarms, poll sequencer, streams, recognisers, batches, wakes, sillage log. -/
structure HubState where
  /-- the AON tick counter (R38) -/
  tick : Nat := 0
  /-- CORE cycles into the present tick, 0 to 19, as the model's clock counts them -/
  subTick : Nat := 0
  /-- the comparators of the alarms (R363), and the staged high words (R364) -/
  cmp : Store Nat := []
  cmpStaged : Store Word := []
  /-- PSQ time zero, and the tick in which each periodic task last fell due (R365) -/
  psqZero : Nat := 0
  taskLast : Store Nat := []
  due : List DueRun := []
  run : Option PsqRun := none
  /-- the number of the next batch of init runs (INIT_DONE, R366) -/
  nextBatch : Nat := 1
  readBuf : List Byte := []
  streams : Store StreamState := []
  batches : Store StreamBatches := []
  recogs : Store RecogState := []
  /-- the latest tick in which a counter group counted or was latched; what BOARD and ALIGHT of each such group held when it began
  and how many it has counted; and the groups latched in it (R377) -/
  countTick : Nat := 0
  counting : Store TickCount := []
  latched : List Nat := []
  intervals : List IvlRec := []
  /-- the stream the batch mover serves next (R380) -/
  moverNext : Nat := 0
  /-- WAKE-policy streams whose held blocks are at HWM_PCT of their quota (R379) -/
  hwm : List Nat := []
  /-- WAKE_HOST is driven high -/
  wakeHost : Bool := false
  /-- sillage records not yet moved, oldest first, and the next record number -/
  sillage : List SillRec := []
  sillSeq : Nat := 0
  /-- the next chunk waits 100 ms after a failed move (R386) -/
  sillRetry : Bool := false
  /-- count of BOOTs after OFF, journaled (R386) -/
  bootsAfterOff : Nat := 0
  /-- the latest correlation pair and the latest TSYNC mark the island holds (R433) -/
  lastPair : Option CorrPair := none
  pairs : List CorrPair := []
  lastMark : Nat := 0
  /-- the AON tags of the TSYNC marks in the sillage log, oldest first (R42) -/
  marks : List Nat := []
  /-- batches and interval records that a Harvest carried (R304, R382) -/
  carriedBatches : List (Nat × Batch) := []
  carriedIvls : List IvlRec := []
  carriedSill : List SillRec := []
  /-- an AON power-on reset has occurred since that Harvest (R382) -/
  porSinceHarvest : Bool := false
  deriving DecidableEq, Repr

/-! ## Sensor buses (chapter 14) -/

/-- What a transfer puts on an I2C bus (Table 14.2): START or repeated START, an address byte, a byte written, bytes read, STOP. -/
inductive BusOp where
  | start
  | addr (a : Nat) (read : Bool)
  | write (b : Byte)
  | read (n : Nat)
  | stop
  deriving DecidableEq, Repr

/-- One I2C controller (R392 to R402). -/
structure I2cState where
  /-- the latest transfer, as it went over the bus -/
  wire : List BusOp := []
  scl : Bool := false
  sda : Bool := false
  busBusy : Bool := false
  xfer : Bool := false
  stuck : Bool := false
  alertLine : Bool := false
  /-- an alert read waits for its 10 ms repeat (R399) -/
  alertWait : Bool := false
  /-- the alert is being handled by a mapped task (R399 step 4) -/
  handling : Bool := false
  lastAra : Nat := 0
  cureCount : Nat := 0
  /-- ticks of the alert reads of the last 100 ms, newest first -/
  araTicks : List Nat := []
  deriving DecidableEq, Repr

/-- One sensor rail (R401, R415). -/
structure RailState where
  curing : Bool := false
  /-- the cure waits for the lines after the rail came back (RAIL_SETTLE_MS) -/
  settling : Bool := false
  down : Bool := false
  cures : Nat := 0
  deriving DecidableEq, Repr

/-- One UART (R403 to R410). -/
structure UartState where
  fifo : List Byte := []
  /-- complete frames of the frame modes, oldest first -/
  frames : List (List Byte) := []
  /-- bytes of the frame in progress -/
  partFrame : List Byte := []
  inFrame : Bool := false
  /-- LENGTH framing: bytes the frame in progress still needs -/
  need : Option Nat := none
  /-- a character is being received -/
  inChar : Bool := false
  /-- the receiver hunts only after one high sample (R406) -/
  needHigh : Bool := false
  txBusy : Bool := false
  de : Bool := false
  /-- the characters of the latest UART_TX step, each with its bits in the order sent (R403, R409) -/
  sent : List (List Bool) := []
  /-- EN has been 1 since reset (Un_TX and Un_DE leave high impedance, R409) -/
  driven : Bool := false
  deriving DecidableEq, Repr

/-- A conversion request: of a PSQ step, or of entry `n` of sequence `s` (R411). -/
inductive AdcReq where
  | psq (ch : Nat)
  | seq (s n : Nat)
  deriving DecidableEq, Repr

/-- ADC, GPIO and rails. -/
structure BusState where
  i2c : Store I2cState := []
  uart : Store UartState := []
  adcQueue : List AdcReq := []
  /-- sequences queued or running -/
  seqActive : List Nat := []
  /-- the tick of the next start of each enabled sequence with TRIG = 0 (R412) -/
  seqNext : Store Nat := []
  rails : Store RailState := []
  /-- debounced levels, and the latest samples after INV -/
  gpiIn : Word := 0
  gpiRaw : Word := 0
  /-- GPO pulses running (SRC 2) -/
  gpoPulse : List Nat := []
  deriving DecidableEq, Repr

/-! ## Acquisition engine (chapter 15) -/

/-- The copy of a profile and of the measurement units taken at an arm (R425, R437). -/
structure Profile where
  idx : Nat
  trigSrc : Nat
  edge : Nat
  trigDch : Nat
  ring : Bool
  overwrite : Bool
  move : Bool
  rearm : Bool
  postTicks : Nat
  dchEn : BitVec 16
  anaEn : BitVec 8
  firstSeg : Nat
  nseg : Nat
  armTmoMs : Nat
  meas : List Word
  deriving DecidableEq, Repr

/-- One entry of a record before packing: its time in units of 0.625 ns, and what changed (R434). -/
inductive AqeEntry where
  | dig (time : Nat) (state : BitVec 16) (multi coarse : Bool)
  | ana (time slot : Nat) (value : Word)
  | ovf (time : Nat) (chans : BitVec 16) (slots : BitVec 8)
  deriving DecidableEq, Repr

/-- One change seen within a record's interval by a measurement unit (R437). -/
inductive MeasEvent where
  | edge (ch : Nat) (rising : Bool) (time : Nat) (multi coarse : Bool)
  | value (slot time : Nat) (v : Int)
  deriving DecidableEq, Repr

/-- Result of one measurement unit (Table 15.9). -/
structure MeasResult where
  func : Nat
  analog : Bool
  value : Word
  n : Nat
  valid : Bool
  multi : Bool
  sat : Bool
  coarse : Bool
  deriving DecidableEq, Repr

/-- A record, capturing or complete (Table 15.5). -/
structure AqeRecord where
  profile : Nat
  rseq : Nat
  segment : Nat
  late : Bool
  cause : Nat := 7
  trigDch : Nat := 0
  trigTime : Nat := 0
  trigCoarse : Bool := false
  armTick : Nat := 0
  endTick : Nat := 0
  dead : Nat := 0xFFFFFFFF
  missed : Nat := 0
  init : BitVec 16 := 0
  dchEn : BitVec 16 := 0
  anaEn : BitVec 8 := 0
  /-- TRIG_FT: Fleet Time in ns, state and step count (R428) -/
  trigFt : Option (Nat × Nat × Nat) := none
  pair : Option CorrPair := none
  mark : Nat := 0
  anaInit : Store Word := []
  entries : List AqeEntry := []
  meas : List MeasResult := []
  ovf : Bool := false
  segFull : Bool := false
  coarse : Bool := false
  forced : Bool := false
  timeout : Bool := false
  multi : Bool := false
  aborted : Bool := false
  parked : Bool := false
  noPair : Bool := false
  /-- the profile had MOVE = 1 (R441) -/
  move : Bool := false
  /-- its move waits 100 ms after a failure -/
  retry : Bool := false
  deriving DecidableEq, Repr

/-- The states of AQE_STAT. -/
inductive AqePhase where
  | idle | armed | capture | rearm
  deriving DecidableEq, Repr

/-- A change that a lane sees (R421, R422): 0 to 15 DCH, 16 and 17 TRIG_IN0 and TRIG_IN1. -/
structure LaneChange where
  lane : Nat
  level : Bool
  phase : Nat
  deriving DecidableEq, Repr

/-- The acquisition engine. -/
structure AqeState where
  phase : AqePhase := .idle
  prof : Option Profile := none
  /-- the run's arm came from a late table entry -/
  armLate : Bool := false
  /-- the run was armed through the page, by AQE_CMD ARM (PAGE_STAT BUSY, R61) -/
  byCmd : Bool := false
  seg : Nat := 0
  armTick : Nat := 0
  dead : Nat := 0xFFFFFFFF
  missed : Nat := 0
  /-- the record capturing, its measurement events, and the last stored value of each slot -/
  cur : Option AqeRecord := none
  events : List MeasEvent := []
  lastStored : Store Word := []
  /-- HELD records, by segment -/
  held : Store AqeRecord := []
  rseq : Nat := 0
  /-- the levels of the pins of Table 15.1, and those of DCH0–DCH15, then TRIG_IN0 and TRIG_IN1, after INV -/
  pins : BitVec 35 := 0
  levels : BitVec 18 := 0
  /-- channels with a further untagged edge since their last tagged change (R422) -/
  multiPend : BitVec 16 := 0
  /-- channels that have lost edges since the trigger of the record capturing (R437) -/
  lostEdges : BitVec 16 := 0
  /-- entries in the entry queue, as of tick `queueTick` (R436) -/
  queueLen : Nat := 0
  queueTick : Nat := 0
  /-- the pulse of TRIG_OUT modes 1 and 3: its first tick, and the tick in which it ends (Table 15.4) -/
  toutPulse : Option (Nat × Nat) := none
  deriving DecidableEq, Repr

/-! ## USB hub, LMF, mailbox (chapter 17) -/

/-- Device states of USB_UP (UP_STAT). -/
inductive UsbUp where
  | detached | attached | default | address | configured
  deriving DecidableEq, Repr

/-- An external downstream port. -/
structure DnPort where
  connect : Bool := false
  enable : Bool := false
  suspend : Bool := false
  overCurrent : Bool := false
  /-- C_PORT_OVER_CURRENT, reported on the status change endpoint -/
  ocChange : Bool := false
  reset : Bool := false
  power : Bool := false
  lowSpeed : Bool := false
  highSpeed : Bool := false
  /-- USB_DNn_OC_N as filtered (false = low, overcurrent) -/
  ocN : Bool := true
  deriving DecidableEq, Repr

/-- An EP1 IN packet (Table 17.8). -/
structure InPacket where
  lseq : Nat
  nak : Bool
  /-- KIND 0 DATA with its Fratra part, or 1 ACK -/
  part : Option (List Byte)
  ack : Nat
  deriving DecidableEq, Repr

/-- An EP2 report (R489). -/
structure Ep2Report where
  nseq : Nat
  delivery : Delivery
  deriving DecidableEq, Repr

/-- The message in the HKP mailbox (R479). -/
structure Mailbox where
  /-- accepted on the LMF path; else by Fratra, with the op tag that waits -/
  lmf : Bool
  opTag : Option Nat
  sec : Bool
  msg : List Byte
  /-- what the HKP has composed and not yet handed over, and the reply once it is ready -/
  composed : Option (List Byte) := none
  reply : Option (List Byte) := none
  deriving DecidableEq, Repr

/-- An open image (R481). -/
structure OpenImage where
  target : Nat
  total : Nat
  data : List Byte := []
  deriving DecidableEq, Repr

/-- USB, the LMF and the HKP mailbox. -/
structure UsbState where
  hubStarted : Bool := false
  vbus : Bool := false
  up : UsbUp := .detached
  suspended : Bool := false
  highSpeed : Bool := false
  lmfAddr : Nat := 0
  rwakeHub : Bool := false
  rwakeLmf : Bool := false
  /-- a remote-wake request is pending (R472) -/
  rwakeReq : Bool := false
  /-- remote-wake permission and NOTE_WAKE as copied into the island at settle step 6 (R473) -/
  parkPermission : Bool := false
  /-- USB_UP stays attached and suspended through this PARK (R116) -/
  parkAttached : Bool := false
  /-- the micro-frame number of the host's latest start-of-frame packet, frame × 8 + micro-frame; CORE cycles since that
  packet; and whether the host's packets run (R467) -/
  frame : Nat := 0
  sofCycles : Nat := 0
  sofRuns : Bool := false
  /-- TT buffers in use: non-periodic, periodic start-split (R467) -/
  ttNp : Nat := 0
  ttPeriodic : Nat := 0
  ports : Store DnPort := []
  /-- PORT_POWER of port 3 -/
  lmfPower : Bool := false
  /-- E, the next IN LSEQ, and the last OUT LSEQ taken -/
  outExp : Nat := 0
  inNext : Nat := 0
  lastTaken : Nat := 0xFFFF
  nseq : Nat := 0
  /-- the OUT bulk buffer: packets taken and not yet handed to the Fratra engine, each with its order (R180) -/
  bulk : List (Nat × LmfFrame) := []
  inQueue : List InPacket := []
  ep2 : List Ep2Report := []
  /-- the latest IN packet and EP2 report that left -/
  lastIn : Option InPacket := none
  lastEp2 : Option Ep2Report := none
  haltOut : Bool := false
  haltIn : Bool := false
  haltEp2 : Bool := false
  haltCause : Nat := 0
  /-- data toggles: endpoints (0 EP1 OUT, 1 EP1 IN, 2 EP2) whose toggle is DATA1 -/
  toggles : List Nat := []
  /-- a BURST 0 packet waits for its ACK to leave (R486) -/
  ackOwed : Bool := false
  mailbox : Option Mailbox := none
  image : Option OpenImage := none
  /-- image copies programmed with OK: target ↦ image bytes -/
  copies : Store (List Byte) := []
  /-- EP0 answers of the last vendor request: stalled, or the data stage returned -/
  ep0 : Option (List Byte) := none
  deriving DecidableEq, Repr


/-! ## The machine -/

/-- LH-96: every register, queue, engine, mode and pin of the manual, and the queue of commands waiting. -/
structure State where
  /-- register contents by absolute address; an unlisted register reads its reset value (R2, R3) -/
  regs : Store Word := []
  /-- counters by the address of their low word, saturating (R76) -/
  ctrs : Store Nat := []
  /-- shadows by path × 2²⁴ + address (R29, R76) -/
  shadows : Store Word := []
  /-- pages whose soft reset runs (R78) -/
  inReset : List Nat := []
  /-- hold-off timers by page × 4 + destination (R81): 0 NOTIFY, 1 IRQ0, 2 IRQ1, 3 LMF -/
  holdoffs : Store HoldOff := []
  /-- by page, the level-sourced conditions that held in the last cycle (R75) -/
  levels : Store Word := []
  /-- pages whose delivery holds IRQ0_N, IRQ1_N asserted (R82) -/
  irq0 : List Nat := []
  irq1 : List Nat := []
  /-- by path number, what the latest access was answered -/
  results : Store AccResult := []
  sec : SecState := {}
  clk : ClkState := {}
  ft : FtState := {}
  tat : TatState := {}
  pwr : PwrState := {}
  evf : EvfState := {}
  ports : Store PortState := []
  snap : SnapState := {}
  fratra : FratraState := {}
  ftl : FtlState := {}
  hrv : HrvState := {}
  acd : AcdState := {}
  hub : HubState := {}
  bus : BusState := {}
  aqe : AqeState := {}
  usb : UsbState := {}
  /-- the model's own count of free values drawn (not the manual's) -/
  freeCtr : Nat := 0
  /-- commands that are waiting, first in, first out -/
  pending : List Instr := []
  deriving DecidableEq, Repr

/-- The machine right after reset: the AON power-on reset asserted, power state OFF, no register written since. -/
def State.reset : State := {}

end Sys2Proof.Machine
end

