-- ==== Sys2Proof/Machine/Ops.lean ====
section
/-! DEFINITION. Machine/Ops.lean: the named operations over registers, counters, shadows and the small tables, on which
every meaning rests. Each register has one home, `State.regs`, and one way in and out. -/

namespace Sys2Proof.Machine

/-! ## Registers -/

/-- What a register holds: its reset value until it is written (R3, R4). -/
def State.reg (s : State) (page off : Nat) : Word :=
  storeLook s.regs (addr page off) (regReset (addr page off))

/-- Field `[msb:lsb]` of a register. -/
def State.fld (s : State) (page off msb lsb : Nat) : Nat := (s.reg page off).fld msb lsb

/-- Bit `n` of a register. -/
def State.bit (s : State) (page off n : Nat) : Bool := (s.reg page off).bit n

/-- Put a whole word into a register. -/
def setReg (s : State) (page off : Nat) (w : Word) : State :=
  { s with regs := storePut s.regs (addr page off) (regReset (addr page off)) w }

/-- Put a number into field `[msb:lsb]` of a register. -/
def setFldOf (s : State) (page off msb lsb v : Nat) : State :=
  setReg s page off ((s.reg page off).setFld msb lsb v)

/-- Put one bit of a register. -/
def setBitOf (s : State) (page off n : Nat) (b : Bool) : State :=
  setFldOf s page off n n (if b then 1 else 0)

/-- PAGE_CTRL EN of a page. -/
def State.en (s : State) (page : Nat) : Bool := s.bit page Off.PAGE_CTRL 0

/-! ## Counters and shadows -/

/-- The largest value of a counter (R76). -/
def ctrMax : Nat := 0xFFFFFFFFFFFFFFFF

/-- What a counter holds. -/
def State.ctr (s : State) (page off : Nat) : Nat := storeLook s.ctrs (addr page off) 0

/-- Put a counter. -/
def setCtr (s : State) (page off v : Nat) : State :=
  { s with ctrs := storePut s.ctrs (addr page off) 0 v }

/-- Add `n` to a counter, which saturates (R76). -/
def bumpBy (s : State) (page off n : Nat) : State := setCtr s page off (min ctrMax (s.ctr page off + n))

/-- Count one event. -/
def bump (s : State) (page off : Nat) : State := bumpBy s page off 1

/-- The number of a path in ERR_CODE PATH and in the shadow key (Table 3.9). -/
def pathNum : Path → Nat
  | .fratra => 0
  | .lmf => 1
  | .hkp => 2
  | .tat => 3

/-- The key of a path's shadow of a register. -/
def shadowKey (p : Path) (page off : Nat) : Nat := pathNum p * 0x1000000 + addr page off

/-- What a path's shadow of a register holds. -/
def State.shadow (s : State) (p : Path) (page off : Nat) : Word := storeLook s.shadows (shadowKey p page off) 0

/-- Latch a word into a path's shadow of a register. -/
def setShadow (s : State) (p : Path) (page off : Nat) (w : Word) : State :=
  { s with shadows := storePut s.shadows (shadowKey p page off) 0 w }

/-- Record what a path's access was answered (R68 step 2). -/
def answerAcc (s : State) (p : Path) (code : Nat) (w : Word) : State :=
  { s with results := storePut s.results (pathNum p) {} { code := code, value := w } }

/-! ## Small tables -/

def State.port (s : State) (k : Nat) : PortState := storeLook s.ports k {}
def setPort (s : State) (k : Nat) (p : PortState) : State := { s with ports := storePut s.ports k {} p }
def onPort (s : State) (k : Nat) (f : PortState → PortState) : State := setPort s k (f (s.port k))

def State.ten (s : State) (n : Nat) : Tenant := storeLook s.fratra.tenants n {}
def setTen (s : State) (n : Nat) (t : Tenant) : State :=
  { s with fratra := { s.fratra with tenants := storePut s.fratra.tenants n {} t } }
def onTen (s : State) (n : Nat) (f : Tenant → Tenant) : State := setTen s n (f (s.ten n))

/-- A LUN position that no part answers at. -/
def noPart : Part :=
  { ifaces := 0, cell := 0, pageKib := 0, pages := 0, blocks := 0, planes := 0, spare := 0, maxRate := 0, rated := none,
    retries := 0 }

def State.lun (s : State) (n : Nat) : Lun := storeLook s.ftl.luns n { part := noPart }
def setLun (s : State) (n : Nat) (l : Lun) : State :=
  { s with ftl := { s.ftl with luns := storePut s.ftl.luns n { part := noPart } l } }
def onLun (s : State) (n : Nat) (f : Lun → Lun) : State := setLun s n (f (s.lun n))

/-- A logical sheaf that holds nothing. -/
def noSheaf : Sheaf := { tenant := 0, whole := false, alloc := 0 }

def State.sheaf (s : State) (n : Nat) : Sheaf := storeLook s.ftl.sheaves n noSheaf
def setSheaf (s : State) (n : Nat) (h : Sheaf) : State :=
  { s with ftl := { s.ftl with sheaves := storePut s.ftl.sheaves n noSheaf h } }
def onSheaf (s : State) (n : Nat) (f : Sheaf → Sheaf) : State := setSheaf s n (f (s.sheaf n))

def onHub (s : State) (f : HubState → HubState) : State := { s with hub := f s.hub }
def onAcd (s : State) (f : AcdState → AcdState) : State := { s with acd := f s.acd }
def onUsb (s : State) (f : UsbState → UsbState) : State := { s with usb := f s.usb }
def onHealth (s : State) (f : HealthState → HealthState) : State :=
  { s with ftl := { s.ftl with health := f s.ftl.health } }
def onHrv (s : State) (f : HrvState → HrvState) : State := { s with hrv := f s.hrv }
def onPwr (s : State) (f : PwrState → PwrState) : State := { s with pwr := f s.pwr }
def onSec (s : State) (f : SecState → SecState) : State := { s with sec := f s.sec }

/-! ## Lists of numbers as sets -/

/-- Add a number to a rising list. -/
def setAdd (l : List Nat) (n : Nat) : List Nat :=
  match l with
  | [] => [n]
  | a :: t => if n = a then l else if n < a then n :: l else a :: setAdd t n

/-- Remove a number. -/
def setDel (l : List Nat) (n : Nat) : List Nat := l.filter (· ≠ n)

/-- Run `f` over a list, threading the machine. -/
def overList {α : Type} (f : State → α → State) (l : List α) (s : State) : State := l.foldl f s

/-- A condition guarding a change: the machine unchanged when it fails. -/
def onlyIf (c : Bool) (f : State → State) (s : State) : State := if c then f s else s

/-- Two 32-bit halves of a number. -/
def lo32 (n : Nat) : Word := BitVec.ofNat 32 n
def hi32 (n : Nat) : Word := BitVec.ofNat 32 (n / 2 ^ 32)

/-- `⌈a / b⌉`. -/
def ceilDiv (a b : Nat) : Nat := (a + b - 1) / b

/-! ## Time -/

/-- The number of a Fleet Time state (Table 2.1). -/
def modeNum : FtMode → Nat
  | .unset => 0
  | .free => 1
  | .tsync => 2
  | .ptp => 3
  | .holdover => 4

/-- A Fleet Time in Table 6.4 layout (12 bytes). -/
def ftBytes (ns mode stepCount : Nat) : List Byte :=
  beBytes 6 (ns / 1000000000) ++ beBytes 4 (ns % 1000000000) ++ [BitVec.ofNat 8 (mode % 8), BitVec.ofNat 8 stepCount]

/-- The present Fleet Time in Table 6.4 layout. -/
def ftNow (s : State) : List Byte := ftBytes s.ft.ns (modeNum s.ft.mode) s.ft.stepCount

/-- The AON pages of Table 3.1. -/
def aonPage (page : Nat) : Bool :=
  match blockOf page with
  | some b => aonBlock b
  | none => false

/-- The core runs: power state RUN, or BOOT after the core reset's release, or HARVEST. -/
def State.inRun (s : State) : Bool := s.pwr.state = .run

/-! ## Interrupt flags without their delivery -/

/-- IRQ_PEND of a page (Table 3.7). -/
def State.irqPend (s : State) (page : Nat) : Bool := s.reg page Off.IRQ_FLAG &&& s.reg page Off.IRQ_EN ≠ 0

/-- Step 1 of R68: load the record, or set MORE beside the one held. -/
def loadErr (s : State) (page : Nat) (record : Word) : State :=
  if s.fld page Off.ERR_CODE 7 0 = 0 then setReg s page Off.ERR_CODE record
  else setBitOf s page Off.ERR_CODE 31 true

/-- A block records an internal error (R68). -/
def internalErr (s : State) (page code : Nat) : State := loadErr s page (Word.place 7 0 code)

/-- A request for USB remote wake (R384, R472): held only with permission, while USB_UP is suspended, or kept attached in
PARK under the copied permission (R473). -/
def requestRemoteWake (s : State) : State :=
  let ok := if s.pwr.state = .park then s.usb.parkAttached && s.usb.parkPermission
    else s.usb.suspended && s.usb.rwakeHub && s.usb.rwakeLmf
  if ok then onUsb s fun u => { u with rwakeReq := true } else s

/-- Draw the next free value's number. -/
def drawFree (s : State) : Nat × State := (s.freeCtr, { s with freeCtr := s.freeCtr + 1 })

end Sys2Proof.Machine
end

