-- ==== Sys2Proof/Machine/Send.lean ====
section
/-! DEFINITION. Machine/Send.lean: what LH-96 sends: the transmit queues of the ports and their arbitration (R130, R140 to
R143, R220 to R224), the bytes of Fratra responses and NOTIFY frames (R154 to R161, R178, R179), and the way each goes
out (R152, R180, R181). -/

namespace Sys2Proof.Machine

/-! ## Ports -/

/-- PORT_MAC of a port (Table 5.9). -/
def State.portMac (s : State) (k : Nat) : BitVec 48 :=
  BitVec.ofNat 48 (s.fld (Pg.MAC k) Off.MAC_PORT_MAC_HI 15 0 * 2 ^ 32 + (s.reg (Pg.MAC k) Off.MAC_PORT_MAC_LO).toNat)

/-- The six octets of an address, octet 1 first. -/
def macBytes (m : BitVec 48) : List Byte := beBytes 6 m.toNat

/-- The address that six octets spell. -/
def macOf (bs : List Byte) : BitVec 48 := BitVec.ofNat 48 (beNat bs)

/-- A port's MODE runs one of the modes of Table 5.1. -/
def State.portMode (s : State) (k : Nat) : Nat := s.fld (Pg.MAC k) Off.MAC_PORT_CFG 3 0
def State.portOn (s : State) (k : Nat) : Bool := decide (1 ≤ s.portMode k) && decide (s.portMode k ≤ 5)

/-- The port carries frames: its mode is not off, its link is up and its page is enabled (R120, R121, R123). -/
def State.portUp (s : State) (k : Nat) : Bool := (s.port k).link && s.en (Pg.MAC k) && s.portOn k

/-- PCP and PFC priority of a transmit class, from TXCLS_PRI (R142). -/
def State.clsPri (s : State) (k cls : Nat) : Nat := s.fld (Pg.MAC k) Off.MAC_TXCLS_PRI (4 * cls + 2) (4 * cls)

/-- The TPIDs that stand before a tag (R124). -/
def isTpid (outer : Bool) (sTpid t : Nat) : Bool := t = 0x8100 || outer && t = sTpid

/-- How many tags (at most two) a frame carries after its addresses (R124). -/
def tagCount (sTpid : Nat) (bs : List Byte) : Nat :=
  let t1 := beNat ((bs.drop 12).take 2)
  if bs.length ≥ 14 && isTpid true sTpid t1 then
    let t2 := beNat ((bs.drop 16).take 2)
    if bs.length ≥ 18 && isTpid false sTpid t2 then 2 else 1
  else 0

def State.sTpid (s : State) (k : Nat) : Nat := s.fld (Pg.MAC k) Off.MAC_TAG_CFG 31 16
def State.qinq (s : State) (k : Nat) : Bool := s.bit (Pg.MAC k) Off.MAC_FRAME_CFG 19
def State.maxFrm (s : State) (k : Nat) : Nat := s.fld (Pg.MAC k) Off.MAC_FRAME_CFG 13 0

/-- The outer S-tag of R125, with the PCP of the inner tag. DESIGN CHOICE (log 117): PCP 0 where the frame has no tag. -/
def addSTag (s : State) (k : Nat) (bs : List Byte) : List Byte :=
  let pcp := if tagCount (s.sTpid k) bs = 0 then 0 else beNat ((bs.drop 14).take 2) / 8192
  bs.take 12 ++ beBytes 2 (s.sTpid k) ++ beBytes 2 (pcp * 8192 + s.fld (Pg.MAC k) Off.MAC_TAG_CFG 11 0) ++ bs.drop 12

/-- A frame padded with zero octets as R130 gives, before its FCS. -/
def padFrame (s : State) (k : Nat) (bs : List Byte) : List Byte :=
  let least := if s.bit (Pg.MAC k) Off.MAC_FRAME_CFG 18 && tagCount (s.sTpid k) bs ≠ 0 then 64 else 60
  bs ++ List.replicate (least - bs.length) 0

/-- The frame as it leaves, without the FCS that LH-96 appends: with the outer S-tag of R125, and padded as R130 gives. An
FCS_PASS frame ends with its own FCS and is not padded. -/
def txImage (s : State) (k : Nat) (f : TxFrame) : List Byte :=
  let tagged := if s.qinq k then addSTag s k f.bytes else f.bytes
  if f.fcsPass then tagged else padFrame s k tagged

/-- A frame with its FCS appended (R130). -/
def withFcs (bs : List Byte) : List Byte := bs ++ leBytes32 (crc32 bs)

/-- The whole frame on the wire. -/
def txWire (s : State) (k : Nat) (f : TxFrame) : List Byte :=
  if f.fcsPass then txImage s k f else withFcs (txImage s k f)

/-- The length of a frame on the wire, FCS included (R126). -/
def txLength (s : State) (k : Nat) (f : TxFrame) : Nat := (txImage s k f).length + if f.fcsPass then 0 else 4

/-- R130: a frame longer than MAXFRM + 4 × its tags, or an FCS_PASS frame below 64 bytes. -/
def txTooLong (s : State) (k : Nat) (f : TxFrame) : Bool :=
  txLength s k f > s.maxFrm k + 4 * tagCount (s.sTpid k) (txImage s k f)
def txTooShort (f : TxFrame) : Bool := f.fcsPass && f.bytes.length < 64

/-- A transmit class may not start a frame (R140). -/
def State.clsStopped (s : State) (k cls : Nat) : Bool :=
  (s.port k).paused || (s.port k).pfcPaused.getLsbD (s.clsPri k cls)

/-! ## Note arbitration (R221 to R223) -/

/-- A tenant's note and weight (Table 8.5). -/
def State.note (s : State) (n : Nat) : Nat := s.fld (Pg.TEN n) Off.TEN_TEN_CFG 2 1
def State.weight (s : State) (n : Nat) : Nat := s.fld (Pg.TEN n) Off.TEN_TEN_CFG 15 8

/-- The note weights of a point kind (0 Ethernet, 1 die, 2 DRAM, 3 Accord): HEART_W for note 1, BASE_W for note 2, and
UPKEEP_W for upkeep, which joins the round of a die queue after them as note 3 (Table 9.8). -/
def State.noteW (s : State) (kind note : Nat) : Nat :=
  let off := Off.TEN_NOTE_W_ETH + 4 * kind
  if note = 1 then s.fld (Pg.TEN 0) off 7 0
  else if note = 3 then s.fld Pg.FTL Off.FTL_UPKEEP_CFG 7 0
  else s.fld (Pg.TEN 0) off 15 8

/-- The weight within a note: upkeep, which is no tenant, is alone in its own. -/
def State.shareW (s : State) (n : Nat) : Nat := if n < 64 then s.weight n else 1

/-- The balance of a Top tenant's bucket of one point kind, filled up to now (R222). -/
def State.tokensOf (s : State) (n kind : Nat) : Int :=
  let cap : Int := (s.fld (Pg.TEN n) Off.TEN_TOP_CAP 31 16 * 1024 : Nat)
  match storeFind (s.ten n).tokens kind with
  | none => cap
  | some (bal, at_) =>
    min cap (bal + ((s.fld (Pg.TEN n) Off.TEN_TOP_CAP 15 0 * (s.fratra.coreUs - at_) : Nat) : Int))

/-- Take a unit's cost from the bucket; the balance may fall below 0 (R222). -/
def spendTokens (s : State) (n kind cost : Nat) : State :=
  onTen s n fun t => { t with tokens := storeInsert t.tokens kind (s.tokensOf n kind - cost, s.fratra.coreUs) }

/-- The quantum Q of R223. -/
def quantum : Nat := 4096

/-- The next of a rising list after `last`, round robin. -/
def nextRR (l : List Nat) (last : Nat) : Option Nat :=
  match l.find? (fun n => decide (last < n)) with
  | some n => some n
  | none => l.head?

/-- A piece of backlog at an instance: the tenant, its note, and the cost of its next unit. -/
structure Backlog where
  tenant : Nat
  note : Nat
  cost : Nat
  deriving DecidableEq, Repr

/-- The next backlogged note after `t` in the round of Heart, Base and upkeep (R223, Table 9.8). -/
def nextNote (bl : List Backlog) (t : Nat) : Nat :=
  (([1, 2, 3].map fun k => (t + k - 1) % 3 + 1).find? fun n => bl.any fun b => decide (b.note = n)).getD t

/-- Deficit round-robin among the notes 1 to 3 and the tenants backlogged in them at an instance (R223), at most `fuel` turns:
the one served, if any. -/
def drrPick (noteW weight : Nat → Nat) (bl : List Backlog) : Nat → Drr → Option Backlog × Drr
  | 0, d => (none, d)
  | fuel + 1, d =>
    let of (n : Nat) := bl.filter (fun b => b.note = n)
    if bl.isEmpty then (none, { d with noteDef := [], turn := 0 })
    else if d.turn = 0 || (of d.turn).isEmpty then
      -- the turn passes: a note no longer backlogged drops its deficit
      let next := nextNote bl d.turn
      let def0 := if d.turn = 0 then d.noteDef else storeErase d.noteDef d.turn
      drrPick noteW weight bl fuel
        { d with turn := next, noteDef := storeModify def0 next 0 (· + ((quantum * noteW next : Nat) : Int)) }
    else
      let ts := (of d.turn).map Backlog.tenant
      let at_ := storeLook d.tenTurn d.turn 0
      match (of d.turn).find? (fun b => decide (b.tenant + 1 = at_)) with
      | none =>
        match nextRR ts (storeLook d.last d.turn 0) with
        | none => (none, d)
        | some t =>
          drrPick noteW weight bl fuel
            { d with
              tenTurn := storePut d.tenTurn d.turn 0 (t + 1)
              tenDef := storeModify d.tenDef t 0 (· + ((quantum * weight t : Nat) : Int)) }
      | some b =>
        if storeLook d.tenDef b.tenant 0 < (b.cost : Int) then
          drrPick noteW weight bl fuel
            { d with tenTurn := storePut d.tenTurn d.turn 0 0, last := storePut d.last d.turn 0 b.tenant }
        else if storeLook d.noteDef d.turn 0 < (b.cost : Int) then
          let next := nextNote bl d.turn
          drrPick noteW weight bl fuel
            { d with turn := next
                     noteDef := storeModify d.noteDef next 0 (· + ((quantum * noteW next : Nat) : Int)) }
        else
          (some b, { d with
            tenDef := storeModify d.tenDef b.tenant 0 (· - (b.cost : Int))
            noteDef := storeModify d.noteDef d.turn 0 (· - (b.cost : Int)) })

/-- Turns that suffice to serve a unit of the greatest cost at hand with every tenant backlogged. -/
def drrTurns (bl : List Backlog) : Nat := 2000 + 200 * (bl.foldl (fun m b => max m b.cost) 0 / quantum)

/-- The selection of R221 at one instance: the tenant served, and whether it is served by idle fill. -/
def selectUnit (s : State) (kind : Nat) (bl : List Backlog) (d : Drr) : Option (Backlog × Bool) × Drr :=
  let tops := bl.filter (fun b => b.note = 0)
  let rich := tops.filter (fun b => decide (0 < s.tokensOf b.tenant kind))
  let byTenant (l : List Backlog) (t : Nat) := l.find? (fun b => decide (b.tenant = t))
  match nextRR (rich.map Backlog.tenant) (storeLook d.last 0 0) with
  | some t => ((byTenant rich t).map (·, false), { d with last := storePut d.last 0 0 t })
  | none =>
    match drrPick (s.noteW kind) s.shareW (bl.filter (fun b => decide (0 < b.note ∧ b.note < 4))) (drrTurns bl) d with
    | (some b, d) => (some (b, false), d)
    | (none, d) =>
      match nextRR (tops.map Backlog.tenant) (storeLook d.last 0 0) with
      | some t => ((byTenant tops t).map (·, true), { d with last := storePut d.last 0 0 t })
      | none => (none, d)

/-- Charge a served unit: a Top tenant's tokens, or the idle fill counter (R221, Table 8.6). -/
def chargeUnit (s : State) (kind : Nat) (b : Backlog) (idle : Bool) : State :=
  if b.note = 0 then
    if idle then bumpBy s (Pg.TEN b.tenant) 0x090 b.cost else spendTokens s b.tenant kind b.cost
  else s

/-- The note by which a tenant is scheduled: TC0 counts as Top (R220). -/
def State.schedNote (s : State) (n : Nat) : Nat := if n = 0 then 0 else min (s.note n) 2

/-- A unit of a tenant that alone is backlogged at its instance: a Top tenant pays tokens while it has any, and is served by
idle fill otherwise (R221). -/
def serveAlone (s : State) (kind n cost : Nat) : State :=
  chargeUnit s kind { tenant := n, note := s.schedNote n, cost := cost } (decide (s.tokensOf n kind ≤ 0))

/-- Deficits without those of a tenant. -/
def Drr.without (d : Drr) (n : Nat) : Drr := { d with tenDef := storeErase d.tenDef n }

/-- The tenant's deficits at every instance are 0 (R224). -/
def clearDeficits (s : State) (n : Nat) : State :=
  let s := (List.range 4).foldl (fun s k => onPort s k fun p => { p with drr := p.drr.without n }) s
  { s with
    fratra := { s.fratra with accDrr := s.fratra.accDrr.map fun e => (e.1, e.2.without n) }
    ftl := { s.ftl with luns := s.ftl.luns.map fun e => (e.1, { e.2 with drr := e.2.drr.without n }) } }

/-! ## Starting a frame (R141, R142) -/

/-- The class in which a frame waits: that of its tenant's present note for a frame of the three notes (R142, R224). -/
def State.liveCls (s : State) (f : TxFrame) : Nat := if f.cls < 3 then min (s.note f.tenant) 2 else f.cls

/-- The distinct tenants of a queue's frames, rising, each with its oldest frame. -/
def txBacklog (s : State) (k : Nat) (l : List TxFrame) : List Backlog :=
  let ts := l.foldl (fun acc f => setAdd acc f.tenant) []
  ts.filterMap fun t =>
    (l.find? (fun f => decide (f.tenant = t))).map fun f => { tenant := t, note := s.liveCls f, cost := txLength s k f }

/-- Notes and tenants without backlog at an instance keep no deficit there (R223). -/
def pruneDrr (bl : List Backlog) (d : Drr) : Drr :=
  { d with
    noteDef := d.noteDef.filter fun e => bl.any fun b => decide (b.note = e.1)
    tenDef := d.tenDef.filter fun e => bl.any fun b => decide (b.tenant = e.1) }

/-- The queues whose priority is `p`, from RXQ_PRI. -/
def State.queuePri (s : State) (k q : Nat) : Nat :=
  if q < 8 then s.fld (Pg.MAC k) Off.MAC_RXQ_PRI_LO (4 * q + 2) (4 * q)
  else s.fld (Pg.MAC k) Off.MAC_RXQ_PRI_HI (4 * (q - 8) + 2) (4 * (q - 8))

/-- FC_MODE of a port: 0 none, 1 PAUSE, 2 PFC. -/
def State.fcMode (s : State) (k : Nat) : Nat := s.fld (Pg.MAC k) Off.MAC_FC_CFG 1 0

/-- The bit of a queue's flow control: bit 0 alone with PAUSE, that of its priority with PFC, none otherwise (R141). -/
def State.xoffBit (s : State) (k q : Nat) : BitVec 8 :=
  if s.fcMode k = 1 then 1 else if s.fcMode k = 2 then BitVec.ofNat 8 (2 ^ s.queuePri k q) else 0

/-- The flow control bits of the queues of a list. -/
def xoffBits (s : State) (k : Nat) (qs : List Nat) : BitVec 8 := qs.foldl (fun m q => m ||| s.xoffBit k q) 0

/-- What is in XOFF at a port: PAUSE, or its priorities (R141). -/
def xoffNow (s : State) (k : Nat) : BitVec 8 := xoffBits s k (s.port k).xoff

/-- A PAUSE (1) or PFC (2) frame for what is due: the address 01-80-C2-00-00-01, EtherType 0x8808, and PAUSE_QUANTA for what
is in XOFF, time 0 for what leaves it (R132, R141). -/
def ctlBytes (s : State) (k mode : Nat) : List Byte :=
  let time (p : Nat) : Nat := if (xoffNow s k).getLsbD p then s.fld (Pg.MAC k) Off.MAC_FC_CFG 31 16 else 0
  let head := macBytes 0x0180C2000001 ++ macBytes (s.portMac k) ++ beBytes 2 0x8808
  if mode = 1 then head ++ beBytes 2 1 ++ beBytes 2 (time 0)
  else
    let due := (s.port k).due
    head ++ beBytes 2 0x0101 ++ beBytes 2 due.toNat ++
      (List.range 8).flatMap fun p => beBytes 2 (if due.getLsbD p then time p else 0)

/-- A control frame on the wire: padded, with its FCS and no S-tag (R125, R130). -/
def ctlWire (s : State) (k mode : Nat) : List Byte :=
  let bs := ctlBytes s k mode
  withFcs (bs ++ List.replicate (60 - bs.length) 0)

/-- The transmit stamp of a frame that starts now (R143). -/
def txStampNow (s : State) (k : Nat) : Nat := s.ft.ns + s.fld (Pg.MAC k) Off.MAC_PORT_LAT 31 16

/-- The PTP message that follows a frame's tags, when it is a PTP event frame (R144). -/
def ptpEvent (s : State) (k : Nat) (bs : List Byte) : Option (List Byte) :=
  let n := tagCount (s.sTpid k) bs
  let body := bs.drop (14 + 4 * n)
  if beNat ((bs.drop (12 + 4 * n)).take 2) = 0x88F7 && decide ((body.headD 0).toNat % 16 ≤ 3) then some body else none

/-- Replace the bytes of `bs` from position `n` on by `v`. -/
def patchBytes (bs : List Byte) (n : Nat) (v : List Byte) : List Byte := bs.take n ++ v ++ bs.drop (n + v.length)

/-- A one-step frame as it leaves, with its stamp written (R144). -/
def stampFrame (s : State) (k : Nat) (f : TxFrame) (ns : Nat) : TxFrame :=
  match ptpEvent s k f.bytes with
  | none => f
  | some body =>
    let at_ := 14 + 4 * tagCount (s.sTpid k) f.bytes
    match f.stamp with
    | .oneStepSync =>
      { f with bytes := patchBytes f.bytes (at_ + 34) (beBytes 6 (ns / 1000000000) ++ beBytes 4 (ns % 1000000000)) }
    | .oneStepPdelay rx =>
      let old := (BitVec.ofNat 64 (beNat ((body.drop 8).take 8)))
      let add := BitVec.ofInt 64 (((ns : Int) - (rx : Int)) * 65536)
      { f with bytes := patchBytes f.bytes (at_ + 8) (beBytes 8 (old + add).toNat) }
    | _ => f

/-- A frame of the three notes leaves with the PCP of the class in which it is sent (R142, R224). -/
def retagFrame (s : State) (k : Nat) (f : TxFrame) : TxFrame :=
  if s.liveCls f = f.cls then f
  else
    { f with
      cls := s.liveCls f
      bytes := patchBytes f.bytes 14
        (beBytes 2 (s.clsPri k (s.liveCls f) * 8192 + beNat ((f.bytes.drop 14).take 2) % 8192)) }

/-- Put a frame on the wire of a port, with its stamp and its FCS (R130, R144). -/
def beginTx (s : State) (k : Nat) (f : TxFrame) : State :=
  let g := retagFrame s k f
  onPort s k fun p =>
    { p with cur := some { frame := g, bytes := txWire s k (stampFrame s k g (txStampNow s k)), ctl := 0
                           startNs := txStampNow s k, length := txLength s k g } }

/-- Put the control frame that is due on the wire of a port (R141). -/
def beginCtl (s : State) (k mode : Nat) : State :=
  onPort s k fun p =>
    { p with cur := some { frame := { cls := 4, bytes := ctlBytes s k mode }, bytes := ctlWire s k mode, ctl := mode
                           startNs := txStampNow s k, length := 64 }
             due := 0, told := (p.told &&& ~~~ p.due) ||| (p.due &&& xoffNow s k) }

/-- The tenants backlogged at a port's transmitter: those whose frames of the three notes wait (R220). -/
def noteBacklog (s : State) (k : Nat) (l : List TxFrame) : List Backlog := txBacklog s k (l.filter fun f => f.cls < 3)

/-- At a frame boundary, start the next frame of a port: a control frame that is due, then PTP, management and the
three notes, classes stopped under R140 left out (R141, R142). In no state but RUN does a frame start (R9, R147). -/
def startTx (s : State) (k : Nat) : State :=
  let p := s.port k
  if p.cur.isSome || !s.portUp k || !s.inRun then s
  else
    if p.due ≠ 0 && decide (s.fcMode k = 1 ∨ s.fcMode k = 2) then beginCtl s k (s.fcMode k)
    else
      let go (f : TxFrame) (s : State) : State :=
        onPort (beginTx s k f) k fun p => { p with tx := p.tx.erase f, drr := pruneDrr (noteBacklog s k (p.tx.erase f)) p.drr }
      match p.tx.find? (fun f => f.cls = 3 && !s.clsStopped k 3) with
      | some f => go f s
      | none =>
        match p.tx.find? (fun f => f.cls = 4 && !s.clsStopped k 4) with
        | some f => go f s
        | none =>
          let ready := p.tx.filter fun f => f.cls < 3 && !s.clsStopped k (s.liveCls f)
          match selectUnit s 0 (txBacklog s k ready) (pruneDrr (noteBacklog s k p.tx) p.drr) with
          | (none, d) => onPort s k fun p => { p with drr := d }
          | (some (b, idle), d) =>
            match ready.find? (fun f => decide (f.tenant = b.tenant)) with
            | none => s
            | some f => go f (chargeUnit (onPort s k fun p => { p with drr := d }) 0 b idle)

/-- Queue a frame at a port that carries frames. -/
def queueTx (s : State) (k : Nat) (f : TxFrame) : State := startTx (onPort s k fun p => { p with tx := p.tx ++ [f] }) k

/-- The transmit class of a tenant's frames: its note, or management for TC0 (R142, R220). -/
def State.txClass (s : State) (n : Nat) : Nat := if n = 0 then 4 else min (s.note n) 2

/-! ## Fratra parts -/

/-- What a response or NOTIFY says (Tables 6.2, 6.6, 6.10). -/
structure Resp where
  tenant : Nat
  opcode : Nat
  optag : Nat := 0
  stream : Nat := 0
  seq : Word := 0
  status : Nat := 0
  window : Nat := 0
  version : Nat := 0
  offset : Nat := 0
  total : Nat := 0
  frag : Bool := false
  last : Bool := true
  dup : Bool := false
  mirrored : Bool := false
  nostream : Bool := false
  ext : Option (List Byte) := none
  key : List Byte := []
  value : List Byte := []
  /-- the key that tags it (R161) -/
  auth : Option (List Byte) := none
  deriving DecidableEq, Repr

def b2n (b : Bool) (n : Nat) : Nat := if b then n else 0

/-- The 32-byte header of a response (Table 6.2). -/
def headerBytes (note : Nat) (r : Resp) : List Byte :=
  [BitVec.ofNat 8 (0x18 + b2n r.frag 4 + b2n r.last 2 + b2n r.auth.isSome 1),
   BitVec.ofNat 8 (note * 64 + r.tenant), BitVec.ofNat 8 r.opcode, BitVec.ofNat 8 r.key.length] ++
  beBytes 2 r.optag ++ [BitVec.ofNat 8 r.stream,
   BitVec.ofNat 8 (b2n r.dup 128 + b2n r.mirrored 64 + b2n r.nostream 32 + b2n r.ext.isSome 16)] ++
  beBytes 4 r.seq.toNat ++ beBytes 2 r.status ++ beBytes 2 r.window ++
  beBytes 8 r.version ++ beBytes 4 r.offset ++ beBytes 4 r.total

/-- The pseudo-header of R161: addresses and VID, or 14 zero bytes over LMF (R180). -/
def pseudoHeader (lmf : Bool) (src dst : BitVec 48) (vid : Nat) : List Byte :=
  if lmf then List.replicate 14 0 else macBytes src ++ macBytes dst ++ beBytes 2 (vid % 4096)

/-- The key in a SEC slot, when it is VALID (R86). -/
def State.slotKey (s : State) (n : Nat) : Option (List Byte) := storeFind s.sec.slots n

/-- The tag of R161 under a key. -/
def tagOf (key pseudo covered : List Byte) : List Byte := (hmac256 key (pseudo ++ covered)).take 16

/-- The key that tags a frame to tenant `n` whose request verified under `key` (R161): none for a tenant without a frame key
now. DEDUCED (log 123): TC0's answers are tagged whenever its request was, with the credential or with its own key. -/
def State.signKey (s : State) (n : Nat) (key : Option (List Byte)) : Option (List Byte) :=
  if n ≠ 0 ∧ (s.slotKey (64 + n)).isNone then none else key

/-- The note field of a tenant's frames (Table 6.2). -/
def State.noteField (s : State) (n : Nat) : Nat := if n = 0 then 3 else s.note n

/-- The address from which a response goes (R152): this port's, or for a relayed request the twin's port (R346). -/
def State.respSrc (s : State) (c : Carriage) : BitVec 48 :=
  if c.kind = 2 then s.acd.twinMacs.getD c.port 0 else s.portMac c.port

/-- The whole Fratra part of a response (Table 6.1). -/
def buildPart (s : State) (c : Carriage) (r : Resp) : List Byte :=
  let key := s.signKey r.tenant r.auth
  let covered := headerBytes (s.noteField r.tenant) { r with auth := key } ++ r.key ++ r.ext.getD [] ++ r.value
  match key with
  | none => covered
  | some k => covered ++ tagOf k (pseudoHeader (c.kind = 1) (s.respSrc c) c.src c.vid) covered

/-- An Ethernet frame around a Fratra part (R151, R152), FCS left out. -/
def fratraFrame (s : State) (k : Nat) (dst : BitVec 48) (vid cls : Nat) (part : List Byte) : List Byte :=
  macBytes dst ++ macBytes (s.portMac k) ++ beBytes 2 0x8100 ++ beBytes 2 (s.clsPri k cls * 8192 + vid) ++
    beBytes 2 (s.fld Pg.STEER Off.STEER_STEER_CFG 15 0) ++ part

/-- The LMF exchanges packets: configured, not suspended, and not after the freeze (R471, R488, Table 1.2). -/
def State.lmfLive (s : State) : Bool := s.usb.up = .configured && !s.usb.suspended && s.pwr.state ≠ .harvest

/-- USB packets that carry one bulk transfer (R484): full ones and the short or zero-length one that ends it. -/
def busPackets (s : State) (len : Nat) : Nat := len / (if s.usb.highSpeed then 512 else 64) + 1

/-- `n` packets pass on an LMF endpoint (0 EP1 OUT, 1 EP1 IN, 2 EP2): its data toggle changes with each (R491). -/
def flipToggle (s : State) (ep n : Nat) : State :=
  if n % 2 = 0 then s
  else onUsb s fun u => { u with toggles := if u.toggles.contains ep then setDel u.toggles ep else setAdd u.toggles ep }

/-- Packets waiting on EP1 IN leave while the endpoint is live; bulk traffic is served in RUN only (R7). -/
def flushIn (s : State) : State :=
  if s.lmfLive && s.inRun && !s.usb.haltIn && !s.usb.inQueue.isEmpty then
    let n := (s.usb.inQueue.map fun p => busPackets s (8 + (p.part.getD []).length)).foldl (· + ·) 0
    let t := bumpBy s Pg.LMF 0x048 s.usb.inQueue.length
    let t := bumpBy t Pg.LMF 0x050 (s.usb.inQueue.filter (fun p => p.part.isNone)).length
    onUsb (flipToggle t 1 n) fun u => { u with inQueue := [], lastIn := u.inQueue.getLast? }
  else s

/-- Reports waiting on EP2 leave while the endpoint is live. -/
def flushEp2 (s : State) : State :=
  if s.lmfLive && !s.usb.haltEp2 && !s.usb.ep2.isEmpty then
    onUsb (flipToggle (bumpBy s Pg.LMF 0x070 s.usb.ep2.length) 2 s.usb.ep2.length) fun u =>
      { u with ep2 := [], lastEp2 := u.ep2.getLast? }
  else s

/-- IN packets waiting leave at once while the LMF is configured, not suspended and not halted: the host polls EP1 IN
and EP2 without pause (DESIGN CHOICE, log 9). -/
def lmfFlush (s : State) : State := flushEp2 (flushIn s)

/-- Queue an IN packet, DATA with a Fratra part or ACK without one (R486); its LSEQ is taken as it is queued. After the
freeze none is queued (R301, R488). -/
def lmfQueue (s : State) (nak : Bool) (part : Option (List Byte)) : State :=
  if s.pwr.state = .harvest then s
  else lmfFlush (onUsb s fun u =>
    { u with inQueue := u.inQueue ++ [{ lseq := u.inNext, nak := nak, part := part, ack := u.lastTaken }]
             inNext := (u.inNext + 1) % 65536
             ackOwed := false })

/-- Put a Fratra part on EP1 IN (R180). -/
def lmfSend (s : State) (part : List Byte) : State := lmfQueue s false (some part)

/-! ## NOTIFY (R179, R226) -/

def State.notifyMac (s : State) (n : Nat) : BitVec 48 :=
  BitVec.ofNat 48 (s.fld (Pg.TEN n) Off.TEN_NOTIFY_MAC_HI 15 0 * 2 ^ 32 + (s.reg (Pg.TEN n) Off.TEN_NOTIFY_MAC_LO).toNat)

def State.tenVid (s : State) (n : Nat) : Nat := s.fld (Pg.TEN n) Off.TEN_TEN_BIND 11 0
def State.tenPorts (s : State) (n : Nat) : BitVec 4 := BitVec.ofNat 4 (s.fld (Pg.TEN n) Off.TEN_TEN_BIND 19 16)
def State.tenActive (s : State) (n : Nat) : Bool := s.bit (Pg.TEN n) Off.TEN_TEN_CFG 0


/-- The ports a NOTIFY of tenant `n` leaves on (R179). -/
def notifyPorts (s : State) (n : Nat) : List Nat :=
  match ((s.ten n).seenAt.find? (fun e => decide (e.1 = s.notifyMac n))).map Prod.snd with
  | some k => if s.portUp k then [k] else
      (List.range 4).filter fun k => (s.tenPorts n).getLsbD k && s.portUp k
  | none => (List.range 4).filter fun k => (s.tenPorts n).getLsbD k && s.portUp k

/-- Use a tenant's next NOTIFY sequence number (R179). -/
def takeNotifySeq (s : State) (n : Nat) : State := onTen s n fun t => { t with notifySeq := (t.notifySeq + 1) % 2 ^ 32 }

/-- A NOTIFY that is due and not sent: its sequence number is used, and NOTIFY_DROP counts it (R226, R227). -/
def dropNotify (s : State) (n : Nat) : State := bump (takeNotifySeq s n) (Pg.TEN n) 0x080

/-- One NOTIFY frame of a tenant on port `k`. -/
def notifyOne (n kind : Nat) (seq : Word) (key : List Byte) (status : Nat) (payload : List Byte) (s : State) (k : Nat) :
    State :=
  let c : Carriage := { kind := 0, port := k, src := s.notifyMac n, vid := s.tenVid n }
  let part := buildPart s c
    { tenant := n, opcode := 0x40, seq := seq, status := status, version := kind, total := payload.length,
      ext := some (ftNow s), key := key, value := payload, auth := s.slotKey (64 + n) }
  queueTx s k
    { cls := s.txClass n, tenant := n, bytes := fratraFrame s k (s.notifyMac n) (s.tenVid n) (s.txClass n) part }

/-- Send a NOTIFY to a tenant (R179, R226): on each port of `notifyPorts`, or not at all while NOTIFY_MAC is 0 or no
port can carry it. -/
def sendNotify (s : State) (n kind : Nat) (key : List Byte) (status : Nat) (payload : List Byte) : State :=
  if s.notifyMac n = 0 then dropNotify s n
  else
    let ports := notifyPorts s n
    let seq := BitVec.ofNat 32 (s.ten n).notifySeq
    let s := onlyIf (!ports.isEmpty) (fun s => bump s (Pg.TEN n) 0x078)
      (overList (notifyOne n kind seq key status payload) ports s)
    takeNotifySeq s n

end Sys2Proof.Machine
end

