-- ==== Sys2Proof/Machine/Irq.lean ====
section
/-! DEFINITION. Machine/Irq.lean: interrupt flags, their delivery and coalescing (R73 to R75, R81 to R84, R489). -/

namespace Sys2Proof.Machine

/-- Hold-off timers: page × 4 + destination (0 NOTIFY, 1 IRQ0_N, 2 IRQ1_N, 3 LMF). -/
def State.holdoff (s : State) (page dest : Nat) : HoldOff := storeLook s.holdoffs (page * 4 + dest) {}
def setHoldoff (s : State) (page dest : Nat) (h : HoldOff) : State :=
  { s with holdoffs := storePut s.holdoffs (page * 4 + dest) {} h }

/-- A destination can take a delivery from a page now (Table 3.15, R84). -/
def destAvailable (s : State) (page dest : Nat) : Bool :=
  match dest with
  | 0 => s.inRun
  | 3 => s.inRun && s.usb.up = .configured
  | _ => aonPage page || s.pwr.state = .run || s.pwr.state = .boot || s.pwr.state = .harvest

/-- The stamp of a set on a page: Fleet Time, or the AON tick on AON pages (R82). -/
def setStamp (s : State) (page : Nat) : Nat := if aonPage page then s.hub.tick else s.ft.ns

/-- The 20-byte INTERRUPT payload (Table 6.11). A flag's AON tag is its tick with phase 0: flags are set in the AON
clock's cycles. -/
def interruptPayload (s : State) (d : Delivery) : List Byte :=
  beBytes 2 d.page ++ [if aonPage d.page then 1 else 0, 0] ++ d.flags.bytes ++
    (if aonPage d.page then beBytes 8 d.stamp ++ [0, 0, 0, 0]
     else ftBytes d.stamp (modeNum s.ft.mode) s.ft.stepCount)

/-- COAL_US of a page. -/
def State.coalUs (s : State) (page : Nat) : Nat := s.fld page Off.IRQ_ROUTE 25 16

/-- A delivery on EP2 (R489): a report, or its number used and EP2_DROP counted; `dropped` raises the EP2_DROP flag. -/
def deliverLmf (dropped : State → State) (s : State) (d : Option Delivery) : State :=
  let seq := s.usb.nseq
  let s := onUsb s fun u => { u with nseq := (u.nseq + 1) % 65536 }
  match d with
  | some d =>
    if s.usb.ep2.length < 32 then
      let s := lmfFlush (onUsb s fun u => { u with ep2 := u.ep2 ++ [{ nseq := seq, delivery := d }] })
      if s.usb.suspended && s.bit Pg.LMF Off.LMF_LMF_CFG 0 then requestRemoteWake s else s
    else dropped (bump s Pg.LMF 0x078)
  | none => dropped (bump s Pg.LMF 0x078)

/-- One destination of a set on a page (R81, R82, R84): deliver, or mark it owed, or nothing where the destination is
not available. -/
def attemptDest (dropped : State → State) (page : Nat) (s : State) (dest : Nat) : State :=
  if !s.bit page Off.IRQ_ROUTE dest then s
  else
    let h := s.holdoff page dest
    let h := { h with first := some (h.first.getD (setStamp s page)) }
    if h.running then
      setHoldoff s page dest { h with owed := h.owed || destAvailable s page dest }
    else if destAvailable s page dest then
      let d : Delivery :=
        { page := page, flags := s.reg page Off.IRQ_FLAG &&& s.reg page Off.IRQ_EN, stamp := h.first.getD 0 }
      let s := setHoldoff s page dest { running := decide (s.coalUs page ≠ 0), owed := false, first := none }
      match dest with
      | 0 => sendNotify s (s.fld page Off.PAGE_OWNER 5 0) 1 [] 0 (interruptPayload s d)
      | 1 => { s with irq0 := setAdd s.irq0 page }
      | 2 => { s with irq1 := setAdd s.irq1 page }
      | _ => deliverLmf dropped s (some d)
    else
      let s := setHoldoff s page dest h
      if dest = 3 && s.inRun then deliverLmf dropped s none else s

/-- A hardware set of the flag bits `mask` on a page, with what it delivers (R81), `fuel` bounding a delivery that sets a
flag of its own (EP2_DROP). -/
def setFlagsFuel : Nat → State → Nat → Word → State
  | 0, s, page, mask => setReg s page Off.IRQ_FLAG (s.reg page Off.IRQ_FLAG ||| mask)
  | fuel + 1, s, page, mask =>
    let s := setReg s page Off.IRQ_FLAG (s.reg page Off.IRQ_FLAG ||| mask)
    if mask &&& s.reg page Off.IRQ_EN = 0 then s
    else [0, 1, 2, 3].foldl (attemptDest (fun s => setFlagsFuel fuel s Pg.LMF 4) page) s

/-- A hardware set of flag bits (R73, R81). -/
def setFlags (s : State) (page : Nat) (mask : Word) : State := setFlagsFuel 3 s page mask

/-- A hardware set of one flag. -/
def setFlag (s : State) (page bit : Nat) : State := setFlags s page (BitVec.ofNat 32 (2 ^ bit))

/-- The pages that are pending and routed to a destination. -/
def pendingRouted (s : State) (dest : Nat) : List Nat :=
  (List.range 256).filter fun p => s.irqPend p && s.bit p Off.IRQ_ROUTE dest

/-- What holds an interrupt pin once the pages `now` are left of those that held it: an asserted pin stays asserted while
any page routed to it is pending (R82, R83). -/
def pinHolders (s : State) (dest : Nat) (was now : List Nat) : List Nat :=
  if was.isEmpty || !now.isEmpty then now else pendingRouted s dest

/-- The pins let go of a page that is no longer pending or no longer routed to them, and are released when no page routed to
them is pending; a page that is not pending has nothing left to deliver (R82). -/
def releasePins (s : State) (page : Nat) : State :=
  let keep (dest : Nat) (l : List Nat) :=
    if s.irqPend page && s.bit page Off.IRQ_ROUTE dest then l else pinHolders s dest l (setDel l page)
  let s := { s with irq0 := keep 1 s.irq0, irq1 := keep 2 s.irq1 }
  if s.irqPend page then s
  else [0, 1, 2, 3].foldl
    (fun s d =>
      if (s.holdoff page d).first.isSome then setHoldoff s page d { s.holdoff page d with first := none } else s) s

/-- A W1C write of IRQ_FLAG (R73, R75): the condition of a level-sourced flag that still holds keeps its bit at 1. -/
def clearFlags (s : State) (page : Nat) (mask : Word) : State :=
  let held := storeLook s.levels page 0
  releasePins (setReg s page Off.IRQ_FLAG (s.reg page Off.IRQ_FLAG &&& ~~~ (mask &&& ~~~ held))) page

/-- A hold-off timer expires (R81): what is owed is delivered; so is a set that could not be delivered while the destination
was not available, once it is (R84). -/
def holdoffExpire (s : State) (page dest : Nat) : State :=
  let h := s.holdoff page dest
  if !h.running then s
  else
    let s := setHoldoff s page dest { h with running := false, owed := false }
    if (h.owed || (h.first.isSome && destAvailable s page dest)) && s.irqPend page then
      attemptDest (fun s => setFlagsFuel 2 s Pg.LMF 4) page s dest
    else s

/-- One delivery to a destination for a page that is pending and routed to it, whatever its hold-off timer does (R83). -/
def deliverOnce (s : State) (page dest : Nat) : State :=
  if s.irqPend page && s.bit page Off.IRQ_ROUTE dest then
    attemptDest (fun s => setFlagsFuel 2 s Pg.LMF 4) page (setHoldoff s page dest { s.holdoff page dest with running := false }) dest
  else s

end Sys2Proof.Machine
end

