-- ==== Sys2Proof/Machine/Respond.lean ====
section
/-! DEFINITION. Machine/Respond.lean: how a frame that LH-96 builds, and a Fratra response, goes out (R130, R152, R164, R168,
R171, R180, R181). -/

namespace Sys2Proof.Machine

/-- A frame discarded on transmit: TX_DROP counts it and is set (R121, R123, R130). DEDUCED (log 118): the flag goes with
every count. -/
def txDropped (s : State) (k : Nat) : State := setFlag (bump s (Pg.MAC k) 0x0E0) (Pg.MAC k) 8

/-- Send a frame on a port. A port that does not carry frames discards it (R121, R123), as it does a frame too long, which is
recorded as TX_LEN, and an FCS_PASS frame too short (R130). -/
def sendTx (s : State) (k : Nat) (f : TxFrame) : State :=
  if !s.portUp k then txDropped s k
  else if txTooLong s k f then internalErr (txDropped s k) (Pg.MAC k) 0x41
  else if txTooShort f then txDropped s k
  else queueTx s k f

/-- Send a Fratra part back the way its request came (R152, R180, R181). -/
def sendPart (s : State) (c : Carriage) (tenant : Nat) (part : List Byte) : State :=
  match c.kind with
  | 0 => sendTx s c.port
      { cls := s.txClass tenant, tenant := tenant, bytes := fratraFrame s c.port c.src c.vid (s.txClass tenant) part }
  | 1 => lmfSend s part
  | _ => onAcd s fun a => { a with out := a.out ++ [.relay c part] }

/-- The largest fragment of a frame: the largest multiple of 64 within P₀ (R168, R171). -/
def maxFragment (s : State) (c : Carriage) (ext auth : Bool) : Nat :=
  let frm := if c.kind = 0 then s.maxFrm c.port else 9600
  (frm - 18 - 32 - b2n ext 12 - b2n auth 16) / 64 * 64

/-- Send a value in ascending fragments, at most `fuel` of them; `r.offset` is where the next fragment lies and
`r.total` the end of the delivered range (R164, R171). -/
def sendValue (c : Carriage) (p : Nat) (many : Bool) : Nat → Resp → List Byte → State → State
  | 0, _, _, s => s
  | fuel + 1, r, bs, s =>
    if bs.length ≤ p ∨ p = 0 then sendPart s c r.tenant (buildPart s c { r with frag := many, last := true, value := bs })
    else
      let s := sendPart s c r.tenant (buildPart s c { r with frag := many, last := false, value := bs.take p })
      sendValue c p many fuel { r with offset := r.offset + p } (bs.drop p) s

/-- Send a response whole (R164, R171). -/
def sendResp (s : State) (c : Carriage) (r : Resp) : State :=
  let p := maxFragment s c r.ext.isSome (s.signKey r.tenant r.auth).isSome
  sendValue c p (decide (p < r.value.length)) (r.value.length + 1) { r with value := [] } r.value s

end Sys2Proof.Machine
end

