-- ==== Sys2Proof/Machine/Figures.lean ====
section
/-! DEFINITION. Machine/Figures.lean: the figures the block reports and judges by, each computed from the state in one
place: charges and quotas, op tags, the population and its capacity, DRAM, the hold-up bank, health. -/

namespace Sys2Proof.Machine

/-! ## Charges, keys, op tags -/

/-- The charge of a plain value of `len` bytes (R199). -/
def chargeOf (len : Nat) : Nat := if len ≤ 2048 then max 64 (ceilDiv len 64 * 64) else ceilDiv len 4096 * 4096

/-- The value length of a key: an alias reports the length of its target name (R202). -/
def contentLength : Content → Nat
  | .value bs => bs.length
  | .aliasTo t => t.length

/-- The charge of what a key holds (R199). -/
def contentCharge : Content → Nat
  | .value bs => chargeOf bs.length
  | .aliasTo _ => 64

def sumBy {α : Type} (f : α → Nat) (l : List α) : Nat := l.foldl (fun n a => n + f a) 0

/-- Used charge: the tenant's keys and the reservations of its writes in flight (R199). -/
def usedCharge (s : State) (n : Nat) : Nat :=
  sumBy (fun k => contentCharge k.content) (s.ten n).keys +
    sumBy (fun e => if e.2.id.tenant = n then e.2.reserved else 0) s.fratra.ops

def State.quotaBytes (s : State) (n : Nat) : Nat := (s.reg (Pg.TEN n) Off.TEN_CAP_QUOTA).toNat * 1048576

def keyCount (s : State) (n : Nat) : Nat := (s.ten n).keys.length
def keyTotal (s : State) : Nat := sumBy (fun n => keyCount s n) (List.range 64)

/-- Op tags held by a tenant, and by the device (R203). -/
def opTags (s : State) (n : Nat) : Nat :=
  sumBy (fun e => if e.2.id.tenant = n ∧ e.2.admitted = true then 1 else 0) s.fratra.ops
def opTagsAll (s : State) : Nat := sumBy (fun e => if e.2.admitted then 1 else 0) s.fratra.ops

def State.optagQuota (s : State) (n : Nat) : Nat := s.fld (Pg.TEN n) Off.TEN_OPTAG_QUOTA 16 0
def State.optagRsv (s : State) (n : Nat) : Nat := s.fld (Pg.TEN n) Off.TEN_OPTAG_RSV 16 0

/-- Free tags of the shared pool (R218). -/
def sharedTags (s : State) : Nat :=
  65536 - sumBy (fun m => max (opTags s m) (s.optagRsv m)) (List.range 64)

/-- Stream contexts held by a tenant. -/
def streamsOf (s : State) (n : Nat) : Nat := (s.fratra.streams.filter (fun c => decide (c.id.tenant = n))).length

/-! ## Population (R236 to R245) -/

def lunChan (n : Nat) : Nat := n / 32
/-- rank c + 16 e + 128 u of LUN 32 c + 4 e + u (R240) -/
def lunRank (n : Nat) : Nat := n / 32 + 16 * (n % 32 / 4) + 128 * (n % 4)
def rankLun (r : Nat) : Nat := 32 * (r % 16) + 4 * (r / 16 % 8) + r / 128

def lunPresent (l : Lun) : Bool := decide (l.part ≠ noPart)
def lunInOrder (l : Lun) : Bool := lunPresent l && !l.excluded && !l.failed

/-- Put a LUN number into a list kept by rising rank. -/
def rankInsert (l : List Nat) (n : Nat) : List Nat :=
  match l with
  | [] => [n]
  | a :: t => if lunRank n < lunRank a then n :: l else a :: rankInsert t n

/-- The rotation order (R240). -/
def rotation (s : State) : List Nat :=
  s.ftl.luns.foldl (fun acc e => if lunInOrder e.2 then rankInsert acc e.1 else acc) []

/-- The reference part: that of the lowest LUN number present (R237). -/
def refPart (s : State) : Part :=
  match s.ftl.luns.find? (fun e => lunPresent e.2) with
  | some e => e.2.part
  | none => noPart

/-- Bits per cell; pages of an SLC-mode block; sizes of blocks in KiB (R241). -/
def cellBits (p : Part) : Nat := if p.cell = 2 then 4 else 3
def slcPages (p : Part) : Nat := p.pages / cellBits p
def slcBlockKib (p : Part) : Nat := slcPages p * p.pageKib
def blockKib (p : Part) : Nat := p.pages * p.pageKib
/-- grains of a native data block -/
def blockGrains (p : Part) : Nat := blockKib p / 4

/-- HRV_BLK for `n` LUNs (R241). -/
def hrvBlkFor (p : Part) (n : Nat) : Nat :=
  if n * slcBlockKib p = 0 then 0 else ceilDiv (4 * 1024 * 1024) (n * slcBlockKib p)

/-- A LUN's data blocks A, and its spare S (R244). -/
def dataBlocks (s : State) (l : Lun) : Nat := l.good - 16 - s.ftl.hrvBlk
def State.sparePct (s : State) : Nat := s.fld Pg.FTL Off.FTL_SPARE_CFG 4 0
def spareOf (pct a : Nat) : Nat := ceilDiv (pct * a) 100
def retiredOf (l : Lun) : Nat := (l.blocks.filter (fun b => decide (b.2.use = 3))).length

/-- Free data blocks of a LUN. -/
def freeBlocks (s : State) (l : Lun) : Nat := dataBlocks s l - l.blocks.length

/-- Key capacity, and the name log's reservation in sheaves (R244, R256). -/
def keyCap (s : State) : Nat := (s.ftl.dram.gib - 4) * 2 ^ 30 / 48
def nameRsv (s : State) : Nat := ceilDiv (keyCap s) 2048

/-- Whole sheaves of a LUN's D blocks, with max(S, R) set aside (R244, R281). -/
def lunSheaves (s : State) (pct : Nat) (l : Lun) : Nat :=
  (dataBlocks s l - max (spareOf pct (dataBlocks s l)) (retiredOf l)) * blockKib l.part / 1024

/-- USABLE for a spare percentage, in sheaves (R244). -/
def usableWith (s : State) (pct : Nat) : Nat :=
  sumBy (fun n => lunSheaves s pct (s.lun n)) (rotation s) - nameRsv s
def usable (s : State) : Nat := usableWith s s.sparePct

/-- Sum of CAP_QUOTA over the ACTIVE tenants (R217). -/
def quotaSum (s : State) : Nat :=
  sumBy (fun n => if s.tenActive n then (s.reg (Pg.TEN n) Off.TEN_CAP_QUOTA).toNat else 0) (List.range 64)

/-! ## Grain map and DRAM (R249 to R257) -/

def regionsResident (s : State) : Nat := (s.ftl.sheaves.filter (fun e => e.2.mapping = 2 && e.2.resident)).length
def regionsEvicted (s : State) : Nat := (s.ftl.sheaves.filter (fun e => e.2.mapping = 2 && !e.2.resident)).length
/-- bytes of resident regions: 2,048 of entries and a 16-byte header each -/
def gmapBytes (s : State) : Nat := regionsResident s * 2064
def gmapLimit (s : State) : Nat :=
  min (s.fld Pg.FTL Off.FTL_GMAP_CFG 3 0 * 2 ^ 30) ((s.ftl.dram.gib - 4) * 2 ^ 30 / 2)
def slotsFree (s : State) : Nat := keyCap s - keyTotal s - 43 * regionsResident s

/-- Dirty bytes held in the write buffer: the grains not yet programmed. -/
def dirtyBytes (s : State) : Nat := 4096 * sumBy (fun e => e.2.dirty.length) s.ftl.sheaves

/-! ## The hold-up bank (R306 to R309) -/

/-- Good Harvest blocks × SLC block size, MiB. -/
def areaMib (s : State) : Nat :=
  sumBy (fun n => s.ftl.hrvBlk * slcBlockKib (s.lun n).part) (rotation s) / 1024

/-- C_USED_UF (R308). -/
def cUsed (s : State) : Nat :=
  let decl := s.fld Pg.HRV Off.HRV_BANK_CFG3 15 0
  match s.hrv.cMeas with
  | some m => if decl = 0 then m else min m decl
  | none => decl

/-- The store accepts writes: C_USED_UF and VHOLD_DIV are known (R308). -/
def takesWrites (s : State) : Bool := decide (cUsed s ≠ 0 ∧ s.fld Pg.HRV Off.HRV_BANK_CFG2 31 16 ≠ 0)

/-- The numerator of d_max: rate × (E − T_FIX share), with E = ETA_PCT × C × (v² − VMIN²) (R307). -/
def bankTerm (s : State) : Nat :=
  let v := s.hrv.vBank
  let vmin := s.fld Pg.HRV Off.HRV_BANK_CFG1 15 0
  let e := s.fld Pg.HRV Off.HRV_BANK_CFG1 22 16 * cUsed s * (v * v - vmin * vmin)
  if v ≤ vmin ∨ s.fld Pg.HRV Off.HRV_BANK_CFG2 31 16 = 0 then 0
  else s.hrv.rateMBs * (e - 60000000000 * s.fld Pg.HRV Off.HRV_BANK_CFG2 15 0)

/-- d_max and ⌊d_max / 1.25⌋, bytes (R307). -/
def dMax (s : State) : Nat := bankTerm s / (20 * s.fld Pg.HRV Off.HRV_BANK_CFG2 15 0 * 1000000)
def dMaxMargin (s : State) : Nat := bankTerm s / (25 * s.fld Pg.HRV Off.HRV_BANK_CFG2 15 0 * 1000000)

def State.budgetBytes (s : State) : Nat := s.fld Pg.HRV Off.HRV_HRV_BUDGET 11 0 * 1048576

/-- The effective Harvest budget B_eff (R307, R308). -/
def bEff (s : State) : Nat := min (min s.budgetBytes (areaMib s * 1048576 / 2)) (dMaxMargin s)

/-- Room of the budget that the armed entries which commit a key keep, a grain each: they act in their own cycle and cannot
wait (R13, R195, R198). DESIGN CHOICE (log 124). -/
def actionRoom (s : State) : Nat :=
  4096 * (s.tat.entries.filter fun e => e.2.status = .armed && (e.2.kind = 2 || e.2.kind = 5)).length

/-- What a change makes dirty has room in the effective Harvest budget, or it makes nothing more dirty (R13). -/
def budgetHolds (before after : State) : Bool :=
  decide (dirtyBytes after ≤ dirtyBytes before) || decide (dirtyBytes after + actionRoom before ≤ bEff before)

/-- A change whose bytes the Harvest budget cannot take yet waits: the machine as it was (R13, R186). -/
def ifRoom (before after : State) : State := if budgetHolds before after then after else before

/-- The bank is weak (R309). -/
def bankWeak (s : State) : Bool := decide (dMaxMargin s < s.budgetBytes)

/-! ## Health (R293 to R295) -/

def spareFormat (s : State) : Nat := sumBy (fun n => spareOf s.sparePct (dataBlocks s (s.lun n))) (rotation s)
def spareLeft (s : State) : Nat :=
  sumBy (fun n => spareOf s.sparePct (dataBlocks s (s.lun n)) - retiredOf (s.lun n)) (rotation s)
def sparePct100 (s : State) : Nat := if spareFormat s = 0 then 0 else 10000 * spareLeft s / spareFormat s
def eraseSum (s : State) : Nat := sumBy (fun n => sumBy Prod.snd (s.lun n).eraseCnt) (rotation s)
def eraseMax (s : State) : Nat :=
  (rotation s).foldl (fun m n => (s.lun n).eraseCnt.foldl (fun m e => max m e.2) m) 0
def eraseAvg (s : State) : Nat :=
  let blocks := sumBy (fun n => dataBlocks s (s.lun n)) (rotation s)
  if blocks = 0 then 0 else eraseSum s / blocks
/-- RATED_PE in use (R294). -/
def ratedPe (s : State) : Nat :=
  let r := s.fld Pg.HLTH Off.HLTH_RATED_PE 16 0
  if r ≠ 0 then r
  else match (refPart s).rated with
    | some n => n
    | none => if (refPart s).cell = 2 then 1000 else 3000
def wearPct100 (s : State) : Nat := 10000 * eraseAvg s / ratedPe s
/-- TEMP_LIMIT, signed °C. -/
def tempLimit (s : State) : Int := (BitVec.ofNat 8 (s.fld Pg.HLTH Off.HLTH_TEMP_CFG 7 0)).toInt
def damageCount (s : State) (d : Damage) : Nat :=
  sumBy (fun n => ((s.ten n).keys.filter (fun k => decide (k.damage = d))).length) (List.range 64)

/-! ## Upkeep states (R260) -/

def gleanCfg (s : State) : Nat × Nat × Nat × Nat :=
  let w := s.reg Pg.FTL Off.FTL_GLEAN_CFG
  (w.fld 7 0, w.fld 15 8, w.fld 23 16, w.fld 31 24)

/-- The state F alone gives: 0 IDLE, 1 BACKGROUND, 2 URGENT, 3 FLOOR. -/
def upkeepFresh (s : State) (f : Nat) : Nat :=
  let (start, urgent, floor, _) := gleanCfg s
  if f ≤ floor then 3 else if f ≤ urgent then 2 else if f < start then 1 else 0

/-- The state that Table 9.8 gives from the present one. -/
def upkeepNext (s : State) (now f : Nat) : Nat :=
  let (start, urgent, floor, add) := gleanCfg s
  if f ≤ floor then 3
  else if f ≤ urgent then 2
  else if now = 0 then (if f < start then 1 else 0)
  else if f ≥ start + add then 0 else 1

/-- Bring a LUN's upkeep state up to its free blocks. -/
def upkeepUpdate (s : State) (n : Nat) : State :=
  onLun s n fun l => { l with upkeep := upkeepNext s l.upkeep (freeBlocks s l) }

/-- Every LUN takes its upkeep state from F alone: at format, at each BOOT, and when GLEAN_CFG is written or restored (R260). -/
def gleanCfgApply (s : State) : State :=
  (storeKeys s.ftl.luns).foldl (fun s n => onLun s n fun l => { l with upkeep := upkeepFresh s (freeBlocks s l) }) s

/-- Every LUN of the rotation order is at FLOOR: write-back has stopped (R261). -/
def allFloor (s : State) : Bool := !(rotation s).isEmpty && (rotation s).all fun n => (s.lun n).upkeep = 3

/-! ## The twin's part in a tenant (R339, R340) -/

/-- TWIN_RANK as sampled, and the tenant's mirror policy and lead rank (Table 8.5). -/
def State.rank (s : State) : Nat := if s.pwr.straps.getLsbD 0 then 1 else 0
def State.mirrorPolicy (s : State) (n : Nat) : Nat := s.fld (Pg.TEN n) Off.TEN_TEN_CFG 5 4
def State.leadRank (s : State) (n : Nat) : Nat := s.fld (Pg.TEN n) Off.TEN_TEN_CFG 6 6
def State.mirrored (s : State) (n : Nat) : Bool := s.mirrorPolicy n ≠ 0

/-- This twin is the tenant's configured lead. -/
def State.leads (s : State) (n : Nat) : Bool := s.leadRank n = s.rank

/-- A mirrored tenant that the latest LEAD_MAP of the twin reports not ACTIVE (R340). -/
def State.unmatched (s : State) (n : Nat) : Bool :=
  !s.acd.twinMap.isEmpty && !(s.acd.twinMap.getD n 0).getLsbD 7

end Sys2Proof.Machine
end

