-- ==== Sys2Proof/Machine/Credit.lean ====
section
/-! DEFINITION. Machine/Credit.lean: holds on streams and the LIMIT of each (R173, R176, R177, R261, R344). -/

namespace Sys2Proof.Machine

/-! ## Serial arithmetic (R172) -/

/-- How far `b` lies above `a`, modulo 2³². -/
def seqDist (a b : Word) : Nat := (b - a).toNat

/-- `a` is at or below `b` in modulo-2³² serial arithmetic. -/
def seqLe (a b : Word) : Bool := decide (seqDist a b < 2 ^ 31)

/-- `a` plus `n`. -/
def seqAdd (a : Word) (n : Nat) : Word := a + BitVec.ofNat 32 n

/-! ## Holds -/

/-- The pair holds a tenant's streams: in JOINING, and in CATCHUP until its resolve phase has ended (Table 12.9, R355). -/
def pairHolds (s : State) (n : Nat) : Bool :=
  s.mirrored n && (s.acd.pair = .joining || (s.acd.pair = .catchup && !s.acd.resolved.contains n))

/-- A hold is in force on the streams of tenant `n` (R177): settle or freeze, FWP or TEN PAGE_CTRL EN at 0 (R208, R234),
the encryption hold (R231), or the pair's. -/
def streamHold (s : State) (n : Nat) : Bool :=
  s.fratra.hold || !s.en Pg.FWP || !s.en (Pg.TEN n) || (s.ten n).keyHold || pairHolds s n

/-! ## LIMIT (R173, R176) -/

/-- BURST_MAX of a tenant. -/
def State.burstMax (s : State) (n : Nat) : Nat := s.fld (Pg.TEN n) Off.TEN_TEN_CFG 22 16

/-- The largest fragment of a stream's tenant. -/
def streamFragment (s : State) (c : StreamCtx) : Nat :=
  maxFragment s c.carriage false (s.signKey c.id.tenant c.auth).isSome

/-- Bytes that credit already granted, fragments already placed, and armed entries keep of the Harvest budget. -/
def roomTaken (s : State) : Nat :=
  dirtyBytes s + actionRoom s + sumBy (fun c => seqDist c.n c.limit * streamFragment s c) s.fratra.streams +
    sumBy (fun e => e.2.data.length + sumBy (fun p => p.bytes.length) e.2.pieces) s.fratra.ops

/-- No LIMIT of the tenant's streams advances: every LUN at FLOOR, an ASYNC tenant at its lag, the backlog at its limit
(R261, R344). -/
def creditBlocked (s : State) (n : Nat) : Bool :=
  !s.inRun || allFloor s || s.acd.lagging.contains n ||
    (s.mirrored n && decide (1048576 ≤ s.acd.backlog.length))

/-- The LIMIT that R176 gives a stream now: the smaller of BASE + 1,023 and N + BURST_MAX, as far as room for one
largest fragment per new SEQ can be reserved, and never less than it is. -/
def limitFor (s : State) (c : StreamCtx) : Word :=
  let aim := min 1023 (seqDist (c.base - 1) c.n + s.burstMax c.id.tenant - 1)
  let have_ := seqDist c.base c.limit
  let p := streamFragment s c
  let room := if p = 0 then 0 else (bEff s - roomTaken s) / p
  if creditBlocked s c.id.tenant ∨ aim ≤ have_ then c.limit else seqAdd c.base (min aim (have_ + room))

/-- The list with the context of `c`'s stream replaced by `c`. -/
def replaceStream (c : StreamCtx) : List StreamCtx → List StreamCtx
  | [] => []
  | d :: l => if d.id = c.id then c :: l else d :: replaceStream c l

/-- Replace a stream's context. -/
def putStream (s : State) (c : StreamCtx) : State :=
  { s with fratra := { s.fratra with streams := replaceStream c s.fratra.streams } }

def State.findStream (s : State) (i : StreamId) : Option StreamCtx :=
  s.fratra.streams.find? fun c => decide (c.id = i)

/-- Bring one stream's LIMIT up to date, and note a change that no response has carried, or a hold that has ended
(R178). -/
def creditOne (s : State) (i : StreamId) : State :=
  match s.findStream i with
  | none => s
  | some c =>
    let l := limitFor s c
    let h := streamHold s c.id.tenant
    if l = c.limit ∧ h = c.held then s
    else putStream s { c with limit := l, held := h, owed := c.owed || decide (l ≠ c.limit) || (c.held && !h) }

/-- Bring every stream's LIMIT up to date. -/
def creditAll (s : State) : State := (s.fratra.streams.map StreamCtx.id).foldl creditOne s

end Sys2Proof.Machine
end

