-- ==== Sys2Proof/Machine/Levels.lean ====
section
/-! DEFINITION. Machine/Levels.lean: the level-sourced flags (R75) and the end of every command, which brings them up to
the state the command has left. -/

namespace Sys2Proof.Machine

/-- The core is powered and out of reset. -/
def State.coreOn (s : State) : Bool := s.pwr.state = .boot || s.pwr.state = .run || s.pwr.state = .harvest

/-- A flag mask bit. -/
def flagBit (n : Nat) (b : Bool) : Word := if b then BitVec.ofNat 32 (2 ^ n) else 0

/-- The level conditions of a tenant's page (Table 8.3). -/
def tenLevels (s : State) (n : Nat) : Word :=
  flagBit 1 (decide (s.quotaBytes n * 9 < usedCharge s n * 10)) |||
    flagBit 4 (decide (opTags s n ≠ 0 ∧ opTags s n = s.optagQuota n)) ||| flagBit 5 (s.ten n).keyHold

/-- The level-sourced conditions that hold on a page. -/
def levelMask (s : State) (page : Nat) : Word :=
  if !aonPage page && !s.coreOn then 0
  else if page = Pg.FWP then
    flagBit 2 (decide (opTagsAll s = 65536)) ||| flagBit 3 (decide (s.fratra.streams.length = 16384))
  else if page = Pg.KVX then flagBit 2 (decide (keyCap s * 9 < keyTotal s * 10))
  else if page = Pg.FTL then
    flagBit 0 ((rotation s).any fun n => (s.lun n).upkeep = 3) |||
      flagBit 1 ((rotation s).any fun n => decide (2 ≤ (s.lun n).upkeep)) |||
      flagBit 2 (decide (0 < gmapBytes s ∧ gmapLimit s * 99 ≤ gmapBytes s * 100))
  else if page = Pg.DRAM then flagBit 2 s.ftl.dram.derate
  else if page = Pg.HLTH then
    if s.ftl.formatted then
      flagBit 2 (decide (sparePct100 s < 2000)) ||| flagBit 3 (decide (9000 ≤ wearPct100 s)) |||
        flagBit 4 (decide (tempLimit s < s.ftl.health.tempNow))
    else flagBit 4 (decide (tempLimit s < s.ftl.health.tempNow))
  else if page = Pg.HRV then
    flagBit 0 s.hrv.weak ||| flagBit 5 (decide (bEff s < dirtyBytes s))
  else if page = Pg.ACD then
    flagBit 2 s.acd.rankConflict ||| flagBit 8 (decide (s.acd.pair = .foreign)) |||
      flagBit 9 (!s.acd.lagging.isEmpty)
  else if page = Pg.BAT then flagBit 0 (!s.hub.hwm.isEmpty)
  else if 0x010 ≤ page ∧ page < 0x014 then flagBit 3 (!(s.port (page - 0x010)).tsFifo.isEmpty)
  else if 0x0C4 ≤ page ∧ page < 0x0C8 then
    let u := storeLook s.bus.uart (page - 0x0C4) {}
    flagBit 5 (!u.fifo.isEmpty || !u.frames.isEmpty)
  else if 0x040 ≤ page ∧ page < 0x080 then tenLevels s (page - 0x040)
  else 0

/-- The pages with level-sourced flags whose conditions can hold or have held: the fixed ones, and the tenants that
have keys, operations or a condition recorded. -/
def levelPages (s : State) : List Nat :=
  let tens := (storeKeys s.fratra.tenants).map (0x040 + ·)
  let tens := s.fratra.ops.foldl (fun l e => setAdd l (0x040 + e.2.id.tenant)) tens
  let tens := (storeKeys s.levels).foldl setAdd tens
  [Pg.FWP, Pg.KVX, Pg.FTL, Pg.DRAM, Pg.HLTH, Pg.HRV, Pg.ACD, Pg.BAT].foldl setAdd
    ((List.range 4).foldl (fun l k => setAdd (setAdd l (Pg.MAC k)) (Pg.UART k)) tens)

/-- Bring one page's level-sourced flags up to date (R75): a condition that holds sets its bit; one that begins counts
as a new set. -/
def refreshLevel (s : State) (page : Nat) : State :=
  let old := storeLook s.levels page 0
  let cur := levelMask s page
  if cur = 0 ∧ old = 0 then s
  else
    let s := { s with levels := storePut s.levels page 0 cur }
    let s := setReg s page Off.IRQ_FLAG (s.reg page Off.IRQ_FLAG ||| (cur &&& old))
    if cur &&& ~~~ old = 0 then s else setFlags s page (cur &&& ~~~ old)

/-- The end of every command: the streams' credit and the level-sourced flags follow the state (R75, R176). -/
def finish (s : State) : State :=
  let s := creditAll s
  (levelPages s).foldl refreshLevel s

/-- A command that has been carried out. -/
def done (s : State) : Host.Outcome State Fault Refusal := .next (finish s)

end Sys2Proof.Machine
end

