-- ==== Sys2Proof/Machine/Evf.lean ====
section
/-! DEFINITION. Machine/Evf.lean: the event fabric (chapter 16): events formed from producer pulses and fires, gates,
offers and their accounting, capture units, and the rules of the channel registers. What a delivered event does at its
consumer stands in Machine/Fabric.lean. -/

namespace Sys2Proof.Machine

/-! ## Channels (Table 16.6) -/

def State.chCfg (s : State) (n : Nat) : Word := s.reg Pg.EVF (Off.EVF_CH_CFG n)
def State.chEn (s : State) (n : Nat) : Bool := (s.chCfg n).bit 0
/-- Home domain: AON (true) or CORE. -/
def State.chAon (s : State) (n : Nat) : Bool := (s.chCfg n).bit 2

/-- Producer `p` is enabled in a channel's mask. -/
def State.chProd (s : State) (n p : Nat) : Bool := s.bit Pg.EVF (0x404 + 32 * n + 4 * (p / 32)) (p % 32)
/-- Consumer `c` is enabled in a channel's mask. -/
def State.chCons (s : State) (n c : Nat) : Bool := s.bit Pg.EVF (0x410 + 32 * n + 4 * (c / 32)) (c % 32)
/-- The enabled consumers of a channel, rising. -/
def chConsumers (s : State) (n : Nat) : List Nat := (List.range 64).filter (s.chCons n)

/-- Producers that exist (Table 16.1), and those of the AON domain. -/
def prodExists (p : Nat) : Bool := p < 72 || (80 ≤ p && p ≤ 82)
def prodAon (p : Nat) : Bool := p < 80
/-- Consumers that exist (Table 16.2), and those of the AON domain. -/
def consExists (c : Nat) : Bool := c ≤ 14 || (16 ≤ c && c ≤ 19) || (32 ≤ c && c ≤ 36)
def consAon (c : Nat) : Bool := c < 32
/-- Gate sources of the AON domain (Table 16.3). -/
def gateAon (g : Nat) : Bool := g ≤ 12

/-- Level of a gate source (Table 16.3). -/
def gateLevel (s : State) (g : Nat) : Bool :=
  if g < 8 then s.bus.gpiIn.bit (24 + g)
  else if g < 12 then (storeLook s.hub.recogs (20 + g) {}).state
  else if g = 12 then s.aqe.phase = .armed
  else if g = 13 then s.ft.mode = .tsync || s.ft.mode = .ptp
  else if g = 14 then s.acd.pair = .paired
  else (List.range 4).any fun k => (s.port k).link

/-- An event of the channel passes its gate (R447). -/
def gatePasses (s : State) (n : Nat) : Bool :=
  let c := s.chCfg n
  !c.bit 3 || gateLevel s (c.fld 11 8) ≠ c.bit 4

/-- The channel forms events now: EN of the page and of the channel, a CORE channel only with core power on (R459). -/
def chRuns (s : State) (n : Nat) : Bool := s.en Pg.EVF && s.chEn n && (s.chAon n || s.coreOn)

/-- The per-channel counters of R457: 0 FIRED, 1 DELIVERED, 2 IGNORED, 3 GATED. -/
def chCtr (n k : Nat) : Nat := 0xA00 + 32 * n + 8 * k

/-- The CORE cycles that the model's clock has counted: 20 in an AON tick. -/
def cycleNow (s : State) : Nat := s.hub.tick * 20 + s.hub.subTick

/-- The taking cycle of an offer made now (Table 16.4): at once in DIRECT; in RESYNC the second cycle of the consumer's domain. An
AON event reaches CORE two cycles after its tick began. -/
def takingCycle (s : State) (n c : Nat) : Nat :=
  if !(s.chCfg n).bit 1 then cycleNow s
  else if consAon c then (s.hub.tick + 2) * 20
  else if s.chAon n then s.hub.tick * 20 + 2
  else cycleNow s + 2

/-- The present cycle of a channel's home domain. -/
def homeCycle (s : State) (n : Nat) : Nat := if s.chAon n then s.hub.tick else cycleNow s
/-- The channel has formed its event of this cycle. -/
def chFormed (s : State) (n : Nat) : Bool := decide (storeFind s.evf.formed n = some (homeCycle s n))

/-- A channel forms one event of `pulses` pulses in this cycle; pulses that come after it in the cycle are merged into it (R446
to R448, R457). -/
def formEvent (s : State) (n pulses : Nat) : State :=
  if chFormed s n then bumpBy s Pg.EVF 0x058 pulses
  else
  let cons := chConsumers s n
  let s := { s with evf := { s.evf with formed := storeInsert s.evf.formed n (homeCycle s n) } }
  let s := bumpBy (bump s Pg.EVF 0x040) Pg.EVF 0x058 (pulses - 1)
  let s := bumpBy s Pg.EVF (chCtr n 0) cons.length
  if gatePasses s n then
    let made : List Offer := cons.map fun c => { ch := n, consumer := c, aonHome := s.chAon n, due := takingCycle s n c }
    { s with evf := { s.evf with offers := s.evf.offers ++ made } }
  else bumpBy (bumpBy s Pg.EVF (chCtr n 3) cons.length) Pg.EVF 0x050 cons.length

/-- The producers `prods` pulse in one cycle: every running channel that any of them reaches forms one event (R446). -/
def pulse (s : State) (prods : List Nat) : State :=
  (List.range 48).foldl (fun s n =>
    let k := (prods.filter (s.chProd n)).length
    if k ≠ 0 && chRuns s n then formEvent s n k else s) s

/-- A served fire of a channel (R454): by software, or by the Timed Action Table (R455). -/
def fireChannel (s : State) (n : Nat) (tat : Bool) : State :=
  let s := bump s Pg.EVF (if tat then 0x068 else 0x060)
  if !s.chEn n then bump s Pg.EVF 0x070
  else if chRuns s n then formEvent s n 1
  else s

/-! ## The end of an offer (R448, R457, R462) -/

def deliverOffer (s : State) (ch : Nat) : State := bump s Pg.EVF (chCtr ch 1)

/-- An ignored offer; the IGNORED flag only while core power is on. -/
def ignoreOffer (s : State) (ch : Nat) : State :=
  let s := bump (bump s Pg.EVF (chCtr ch 2)) Pg.EVF 0x048
  if s.coreOn then setFlag s Pg.EVF 0 else s

/-- Take one offer of a channel to a consumer off the list, one whose taking cycle has come. -/
def takeOffer (now : Nat) : List Offer → Nat → Nat → Option (List Offer)
  | [], _, _ => none
  | o :: t, ch, c =>
    if o.ch = ch ∧ o.consumer = c ∧ o.due ≤ now then some t else (takeOffer now t ch c).map (o :: ·)

/-- Core power goes off: CORE-to-AON offers on their way are counted ignored (R458), and CORE channels' captures go. -/
def evfPowerOff (s : State) : State :=
  let lost := s.evf.offers.filter fun o => !o.aonHome && consAon o.consumer
  let s := { s with evf := { s.evf with
    offers := s.evf.offers.filter (fun o => o.aonHome || !consAon o.consumer), fcap := [] } }
  lost.foldl (fun s o => bump (bump s Pg.EVF (chCtr o.ch 2)) Pg.EVF 0x048) s

/-! ## Capture units (R461) -/

/-- A capture: it overwrites a value still VALID and marks it MISSED. -/
def capture (old : Capture) (value ch : Nat) : Capture := { value := value, ch := ch, missed := old.valid, valid := true }

def captureFt (s : State) (k ch : Nat) : State :=
  setFlag { s with evf := { s.evf with
    fcap := storePut s.evf.fcap k {} (capture (storeLook s.evf.fcap k {}) s.ft.ns ch) } } Pg.EVF 1

def captureAon (s : State) (k ch : Nat) : State :=
  let s := { s with evf := { s.evf with
    acap := storePut s.evf.acap k {} (capture (storeLook s.evf.acap k {}) s.hub.tick ch) } }
  if s.coreOn then setFlag s Pg.EVF 2 else s

/-- The INFO word of a capture. -/
def captureInfo (c : Capture) (hi : Nat) : Word :=
  Word.place 15 0 hi ||| Word.place 21 16 c.ch ||| Word.place 30 30 (if c.missed then 1 else 0) |||
    Word.place 31 31 (if c.valid then 1 else 0)

/-- A read of FCAPk_NS or ACAPk_LO latches the whole capture into the path's shadow and clears VALID and MISSED: the
word read. -/
def readCapture (s : State) (p : Path) (aon : Bool) (k : Nat) : Word × State :=
  let c := storeLook (if aon then s.evf.acap else s.evf.fcap) k {}
  let freed := { c with missed := false, valid := false }
  if aon then
    let s := setShadow (setShadow s p Pg.EVF (Off.EVF_ACAP_HI k) (hi32 c.value)) p Pg.EVF (Off.EVF_ACAP_INFO k)
      (captureInfo c 0)
    (lo32 c.value, { s with evf := { s.evf with acap := storePut s.evf.acap k {} freed } })
  else
    let sec := c.value / 1000000000
    let s := setShadow (setShadow s p Pg.EVF (Off.EVF_FCAP_SEC_LO k) (lo32 sec)) p Pg.EVF (Off.EVF_FCAP_INFO k)
      (captureInfo c (sec / 2 ^ 32))
    (lo32 (c.value % 1000000000), { s with evf := { s.evf with fcap := storePut s.evf.fcap k {} freed } })

/-! ## The page's registers (R453, R456, R460, R462) -/

/-- The channel whose registers or counters an offset belongs to. -/
def chanOf (off : Nat) : Option Nat :=
  if 0x400 ≤ off ∧ off < 0xA00 then some ((off - 0x400) / 32)
  else if 0xA00 ≤ off ∧ off < 0x1000 then some ((off - 0xA00) / 32)
  else none

/-- The page code of a write of channel register `off` by identity `tenant`; `w` is what the register would hold. -/
def evfCheck (s : State) (tenant off : Nat) (w : Word) : Nat :=
  match chanOf off with
  | none => 0
  | some n =>
    if 0xA00 ≤ off ∨ (off - 0x400) % 32 ≥ 0x18 then 0
    else
      let t := setReg s Pg.EVF off w
      let old := s.chCfg n
      let new := t.chCfg n
      let prods := (List.range 96).filter (t.chProd n)
      let cons := chConsumers t n
      let dom := new.bit 2
      if old.fld 22 16 ≠ new.fld 22 16 ∧ tenant ≠ 0 then 0x03
      else if old.bit 0 ∧ new.bit 0 ∧ old.fld 2 1 ≠ new.fld 2 1 then 0x04
      else if prods.any (fun p => !prodExists p) ∨ cons.any (fun c => !consExists c) then 0x02
      else if new.bit 0 ∧ (prods.any (fun p => prodAon p ≠ dom) ∨ (new.bit 3 ∧ gateAon (new.fld 11 8) ≠ dom) ∨
          (!new.bit 1 ∧ cons.any fun c => consAon c ≠ dom)) then 0x01
      else 0

/-- CH_ACTIVE0, CH_ACTIVE1 and CH_STAT. -/
def chActive (s : State) (base : Nat) : Word :=
  (List.range 32).foldl (fun w i => if base + i < 48 && s.chEn (base + i) then w ||| BitVec.ofNat 32 (2 ^ i) else w) 0
def chStat (s : State) (n : Nat) : Word := if s.evf.offers.any fun o => o.ch = n then 1 else 0

/-- The page soft reset discards offers and captures (R460); the registers and counters go with the common rule. -/
def evfSoftReset (s : State) : State := { s with evf := {} }

end Sys2Proof.Machine
end

