-- ==== Sys2Proof/Machine/Aqe.lean ====
section
/-! DEFINITION. Machine/Aqe.lean: the acquisition engine and the measurement units (chapter 15). Moving records into the
store stands in Machine/Mover.lean. -/

namespace Sys2Proof.Machine

def onAqe (s : State) (f : AqeState → AqeState) : State := { s with aqe := f s.aqe }

/-! ## Segments (R424, R435) -/

def State.segLog2 (s : State) : Nat := s.fld Pg.AQE Off.AQE_AQE_CFG 3 0
def segCount (s : State) : Nat := 2 ^ s.segLog2
def segBytes (s : State) : Nat := 1048576 / segCount s
/-- Entries a segment takes before its reserved last place. -/
def usableEntries (s : State) : Nat := (segBytes s - 192) / 8 - 1

/-- A run is active. -/
def runActive (s : State) : Bool := s.aqe.phase ≠ .idle
/-- A segment's state: 0 FREE, 1 ACTIVE, 2 HELD. -/
def segState (s : State) (n : Nat) : Nat :=
  if s.aqe.phase = .capture ∧ s.aqe.seg = n then 1
  else if (storeFind s.aqe.held n).isSome then 2
  else 0

/-! ## Profiles (R425, Table 15.10) -/

/-- The copy of profile `p` and of the measurement units' registers that an arm takes. -/
def profileOf (s : State) (p : Nat) : Profile :=
  let a := s.reg Pg.AQE (Off.AQE_PROF_A p)
  let c := s.reg Pg.AQE (Off.AQE_PROF_C p)
  let d := s.reg Pg.AQE (Off.AQE_PROF_D p)
  { idx := p, trigSrc := a.fld 2 0, edge := a.fld 5 4, trigDch := a.fld 11 8, ring := a.bit 12, overwrite := a.bit 13
    move := a.bit 14, rearm := a.bit 15, postTicks := (s.reg Pg.AQE (Off.AQE_PROF_B p)).toNat
    dchEn := BitVec.ofNat 16 (c.fld 15 0), anaEn := BitVec.ofNat 8 (c.fld 23 16)
    firstSeg := d.fld 11 0, nseg := d.fld 28 16 + 1, armTmoMs := s.fld Pg.AQE (Off.AQE_PROF_E p) 15 0
    meas := (List.range 8).map fun u => s.reg (Pg.MEAS u) Off.MEAS_MEAS_CFG }

/-- The profile is one that an arm refuses (R425). -/
def profileBad (s : State) (p : Profile) : Bool :=
  decide (segCount s < p.firstSeg + p.nseg) || (p.dchEn = 0 && p.anaEn = 0) || p.postTicks = 0 || decide (5 ≤ p.trigSrc)

/-! ## Entries (R434, R435) -/

def entryTime : AqeEntry → Nat
  | .dig t _ _ _ => t
  | .ana t _ _ => t
  | .ovf t _ _ => t

/-- An entry goes before another: ascending time, a digital one before an analog one of equal time. -/
def entryBefore (a b : AqeEntry) : Bool :=
  if entryTime a < entryTime b then true
  else if entryTime b < entryTime a then false
  else match a, b with
    | .dig .., .ana .. => true
    | _, _ => false

/-- Put an entry in its place; a digital change with the tag of one stored already joins it. -/
def putEntry : List AqeEntry → AqeEntry → List AqeEntry
  | [], e => [e]
  | f :: t, e =>
    match f, e with
    | .dig tf _ mf cf, .dig te se me ce =>
      if tf = te then .dig te se (mf || me) (cf || ce) :: t
      else if te < tf then e :: f :: t
      else f :: putEntry t e
    | _, _ => if entryBefore e f then e :: f :: t else f :: putEntry t e

/-- A 64-bit entry: TYPE, DELTA, payload. -/
def entryBytes (type delta : Nat) (payload : Word) : List Byte :=
  beBytes 4 (type * 2 ^ 28 + delta % 2 ^ 28) ++ payload.bytes

/-- One entry as stored after time `prev`, with the GAP entry before it when DELTA would exceed 28 bits. -/
def packEntry (prev : Nat) (e : AqeEntry) : List (List Byte) :=
  let d := entryTime e - prev
  let (gap, d) : List (List Byte) × Nat :=
    if d < 2 ^ 28 then ([], d) else ([entryBytes 1 d (BitVec.ofNat 32 (d / 2 ^ 28))], 0)
  gap ++
    [match e with
      | .dig _ st multi _ => entryBytes 0 d (BitVec.ofNat 32 (st.toNat + if multi then 2 ^ 31 else 0))
      | .ana _ slot v => entryBytes (8 + slot) d v
      | .ovf _ ch sl => entryBytes 2 d (BitVec.ofNat 32 (ch.toNat + 65536 * sl.toNat))]

/-- A record's entries as stored, from the trigger time on. -/
def packEntries : Nat → List AqeEntry → List (List Byte)
  | _, [] => []
  | prev, e :: t => packEntry prev e ++ packEntries (entryTime e) t

/-! ## The record's bytes (Table 15.5) -/

def pairBytes (p : Option CorrPair) (mark : Nat) : List Byte :=
  match p with
  | none => List.replicate 32 0
  | some p =>
    beBytes 8 p.tick ++ [BitVec.ofNat 8 (p.phase + if p.coarse then 32 else 0), BitVec.ofNat 8 p.src,
      if p.seeded then 1 else 0, 0] ++ ftBytes p.ns (modeNum p.mode) p.stepCount ++ beBytes 8 mark

def measBytes (m : MeasResult) : List Byte :=
  m.value.bytes ++ beBytes 2 (min 65535 m.n) ++
    [BitVec.ofNat 8 ((if m.valid then 1 else 0) + (if m.multi then 2 else 0) + (if m.sat then 4 else 0) +
      if m.coarse then 8 else 0), BitVec.ofNat 8 (m.func + if m.analog then 16 else 0)]

/-- FLAGS of a record; `ue` is SRAM_UE of a moved copy. -/
def recordFlags (r : AqeRecord) (ue : Bool) : Nat :=
  let b (c : Bool) (n : Nat) : Nat := if c then 2 ^ n else 0
  b r.ovf 0 + b r.segFull 1 + b r.coarse 2 + b r.late 3 + b r.forced 4 + b r.timeout 5 + b r.multi 6 + b r.aborted 7 +
    b r.parked 8 + b r.noPair 9 + b ue 10

/-- The record as its segment holds it (R432). -/
def recordBytes (r : AqeRecord) : List Byte :=
  let entries := packEntries r.trigTime r.entries
  [1, BitVec.ofNat 8 r.profile] ++ beBytes 2 (recordFlags r false) ++ beBytes 2 r.segment ++
    [BitVec.ofNat 8 (r.cause + if r.cause = 3 then 16 * r.trigDch else 0),
      BitVec.ofNat 8 (r.trigTime % 32 + if r.trigCoarse then 32 else 0)] ++
    beBytes 4 r.rseq ++ beBytes 4 entries.length ++ beBytes 8 (r.trigTime / 32) ++ beBytes 8 r.armTick ++
    beBytes 8 r.endTick ++ beBytes 4 r.dead ++ beBytes 2 (min 65535 r.missed) ++ beBytes 2 r.init.toNat ++
    beBytes 2 r.dchEn.toNat ++ [r.anaEn, if r.trigFt.isSome then 1 else 0] ++
    (match r.trigFt with
      | some (ns, mode, step) => ftBytes ns mode step
      | none => List.replicate 12 0) ++
    pairBytes r.pair r.mark ++ ((List.range 8).flatMap fun k => (storeLook r.anaInit k 0).bytes) ++
    r.meas.flatMap measBytes ++ entries.flatten

/-- LEN of a record (R432). -/
def recordLen (r : AqeRecord) : Nat := 192 + 8 * (packEntries r.trigTime r.entries).length

/-! ## Measurements (R437, R438) -/

/-- The edges of a channel in a record, oldest first: rising, time, multi, coarse. -/
def edgesOf (evs : List MeasEvent) (ch : Nat) : List (Bool × Nat × Bool × Bool) :=
  evs.filterMap fun e => match e with
    | .edge c r t m k => if c = ch then some (r, t, m, k) else none
    | .value .. => none

/-- The values of a slot in a record, oldest first. -/
def valuesOf (evs : List MeasEvent) (slot : Nat) : List Int :=
  evs.filterMap fun e => match e with
    | .value k _ v => if k = slot then some v else none
    | .edge .. => none

/-- The complete pulses of the level that starts with an edge `up`: their lengths. -/
def pulses (up : Bool) : List (Bool × Nat) → List Nat
  | (a, t) :: (b, u) :: l => if a = up && b ≠ up then (u - t) :: pulses up l else pulses up ((b, u) :: l)
  | _ => []

/-- Time at the level that starts with an edge `up`, within the edges given. -/
def timeAt (up : Bool) : List (Bool × Nat) → Nat
  | (a, t) :: (b, u) :: l => (if a = up then u - t else 0) + timeAt up ((b, u) :: l)
  | _ => 0

/-- A digital function uses a COARSE tag: of the first and last edge of its kind for PERIOD and FREQ, of any edge for the others
(R437). -/
def usesCoarse (func : Nat) (pol : Bool) (es : List (Bool × Nat × Bool × Bool)) : Bool :=
  let r := es.filter fun e => e.1 = !pol
  if func = 1 ∨ func = 2 then (r.head?.any fun e => e.2.2.2) || (r.getLast?.any fun e => e.2.2.2)
  else es.any fun e => e.2.2.2

/-- Saturate a digital result to 32 bits. -/
def satNat (v : Nat) : Word × Bool := if v < 2 ^ 32 then (BitVec.ofNat 32 v, false) else (0xFFFFFFFF, true)

/-- Saturate an analog result to the signed range. -/
def satInt (v : Int) : Word × Bool :=
  if v < -(2 ^ 31) then (0x80000000, true) else if 2 ^ 31 ≤ v then (0x7FFFFFFF, true) else (BitVec.ofInt 32 v, false)

/-- A result that is not valid: its value and count are not stated, and are free. -/
def invalidResult (s : State) (func : Nat) (analog : Bool) : MeasResult × State :=
  let (n, s) := drawFree s
  let (m, s) := drawFree s
  ({ func := func, analog := analog, value := Config.freeWord n, n := (Config.freeWord m).toNat % 65536, valid := false
     multi := false, sat := false, coarse := false }, s)

/-- A digital function's value, N and validity from the edges of its channel (Table 15.8). -/
def digitalResult (func : Nat) (edge : Nat) (pol : Bool) (edges : List (Bool × Nat)) : Option (Nat × Nat) :=
  let up := !pol
  let r := (edges.filter fun e => e.1 = up).map Prod.snd
  let k := r.length
  let span := r.getLast?.getD 0 - r.headD 0
  if func = 1 then if 2 ≤ k then some (span / (k - 1), k - 1) else none
  else if func = 2 then
    if 2 ≤ k then some ((2 * 160000000000 * (k - 1) + span) / (2 * span), k - 1) else none
  else if func = 3 then
    let p := pulses up edges
    if p.isEmpty then none else some (sumBy id p / p.length, p.length)
  else if func = 4 then
    if 2 ≤ k then
      let inside := edges.filter fun e => decide (r.headD 0 ≤ e.2 ∧ e.2 ≤ r.getLast?.getD 0)
      some (65536 * timeAt up inside / span, k - 1)
    else none
  else if func = 5 then
    let n := (edges.filter fun e => if edge = 0 then e.1 else if edge = 1 then !e.1 else true).length
    some (n, n)
  else none

/-- An analog function's value from the slot's values, at least one (Table 15.8). -/
def analogResult (func : Nat) (vs : List Int) : Int :=
  let lo := vs.foldl min (vs.headD 0)
  let hi := vs.foldl max (vs.headD 0)
  if func = 6 then lo
  else if func = 7 then hi
  else if func = 8 then hi - lo
  else (vs.foldl (· + ·) 0).tdiv (vs.length : Int)

/-- The result of unit `u` for a record whose interval ends (R437). -/
def measure (s : State) (p : Profile) (r : AqeRecord) (evs : List MeasEvent) (lost : BitVec 16) (u : Nat) :
    MeasResult × State :=
  let cfg := p.meas.getD u 0
  let func := if s.en (Pg.MEAS u) then cfg.fld 3 0 else 0
  let analog := cfg.bit 4
  let src := cfg.fld 11 8
  if func = 0 then
    ({ func := 0, analog := analog, value := 0, n := 0, valid := false, multi := false, sat := false, coarse := false }, s)
  else if analog then
    if src < 8 ∧ r.anaEn.getLsbD src then
      let vs := (storeLook r.anaInit src 0).signed :: valuesOf evs src
      let (v, sat) := satInt (analogResult func vs)
      ({ func := func, analog := true, value := v, n := vs.length, valid := true, multi := false, sat := sat
         coarse := false }, s)
    else invalidResult s func true
  else if !r.dchEn.getLsbD src then invalidResult s func false
  else
    let es := edgesOf evs src
    match digitalResult func (cfg.fld 13 12) (cfg.bit 14) (es.map fun e => (e.1, e.2.1)) with
    | none => invalidResult s func false
    | some (v, n) =>
      let (w, sat) := satNat v
      ({ func := func, analog := false, value := w, n := n, valid := true, multi := lost.getLsbD src, sat := sat
         coarse := usesCoarse func (cfg.bit 14) es }, s)

/-- Show a unit's result in its RES registers, flags and counters (R438, R445). -/
def showResult (rseq : Nat) (s : State) (um : Nat × MeasResult) : State :=
  let (u, m) := um
  let s := setReg s (Pg.MEAS u) Off.MEAS_RES_VAL m.value
  let s := setReg s (Pg.MEAS u) Off.MEAS_RES_INFO
    (Word.place 15 0 (min 65535 m.n) ||| Word.place 16 16 (if m.valid then 1 else 0) |||
      Word.place 17 17 (if m.multi then 1 else 0) ||| Word.place 18 18 (if m.sat then 1 else 0) |||
      Word.place 19 19 (if m.coarse then 1 else 0))
  let s := setReg s (Pg.MEAS u) Off.MEAS_RES_RSEQ (BitVec.ofNat 32 rseq)
  let s := setFlag (bump s (Pg.MEAS u) 0x040) (Pg.MEAS u) 0
  if m.valid then s else setFlag (bump s (Pg.MEAS u) 0x048) (Pg.MEAS u) 1

/-! ## Runs and records (R425 to R430) -/

/-- The pair nearest the trigger among those the island holds, an earlier one where two are as near (R433). -/
def nearestPair (s : State) (t : Nat) : Option CorrPair :=
  let dist (p : CorrPair) : Nat :=
    let u := p.tick * 32 + p.phase
    if u ≤ t then t - u else u - t
  s.hub.pairs.foldl (fun b p => match b with
    | none => some p
    | some q => if dist p < dist q then some p else b) none

/-- Tick of the latest TSYNC mark at or before a time; 0 if none. -/
def markBefore (s : State) (t : Nat) : Nat := (s.hub.marks.foldl (fun b m => if m ≤ t then m else b) 0) / 32

/-- The run ends (R426). -/
def dropRun (s : State) : State :=
  setFlag (onAqe s fun a => { a with phase := .idle, prof := none, cur := none, events := [] }) Pg.AQE 2

/-- The present value of an analog slot's stream. -/
def slotValue (s : State) (k : Nat) : Word :=
  (storeLook s.hub.streams (s.fld Pg.AQE (Off.AQE_ANA_SLOT k) 5 0) {}).value

/-- A pulse of TRIG_OUT from a tick on, for WIDTH_TICKS (Table 15.4). -/
def toutFrom (s : State) (tick : Nat) : Option (Nat × Nat) :=
  some (tick, tick + s.fld Pg.AQE Off.AQE_TOUT_CFG 15 8)

/-- Start the waiting record (R427, R432): its cause, its trigger time, and what the trigger lane captured. -/
def startRecord (s : State) (p : Profile) (cause time : Nat) (coarse : Bool) (forced timeout : Bool) : State :=
  let a := s.aqe
  let init := (a.levels.setWidth 16) &&& p.dchEn
  let slots := (List.range 8).foldl (fun m k => if p.anaEn.getLsbD k then storePut m k 0 (slotValue s k) else m) []
  let r : AqeRecord :=
    { profile := p.idx, rseq := a.rseq, segment := a.seg, late := a.armLate, cause := cause
      trigDch := if cause = 3 then p.trigDch else 0, trigTime := time, trigCoarse := coarse, armTick := a.armTick
      dead := a.dead, missed := a.missed, init := init, dchEn := p.dchEn, anaEn := p.anaEn
      trigFt := if cause ≤ 1 && s.coreOn then some (s.ft.ns, modeNum s.ft.mode, s.ft.stepCount) else none
      anaInit := slots, coarse := coarse, forced := forced, timeout := timeout, parked := !s.coreOn, move := p.move }
  let s := onAqe s fun a =>
    { a with phase := .capture, cur := some r, rseq := (a.rseq + 1) % 2 ^ 32, missed := 0, events := []
             lastStored := slots, lostEdges := 0
             toutPulse := if s.fld Pg.AQE Off.AQE_TOUT_CFG 1 0 = 1 then toutFrom s (time / 32 + 2) else a.toutPulse }
  pulse (bump s Pg.AQE 0x048) [68]

/-- A record is armed in `seg` from `tick`; TRIG_SRC 4 starts it at once (R425, R427, R430). -/
def armRecord (s : State) (p : Profile) (seg tick dead : Nat) : State :=
  let s := onAqe s fun a => { a with phase := .armed, seg := seg, armTick := tick, dead := dead }
  if p.trigSrc = 4 then startRecord s p 4 (tick * 32) false false false else s

/-- Use segment `seg` for the next record: a HELD record there is discarded, or ends the run (R426). -/
def takeSegment (s : State) (p : Profile) (seg : Nat) : Option State :=
  if (storeFind s.aqe.held seg).isSome then
    if p.overwrite then
      some (bump (onAqe s fun a => { a with held := storeErase a.held seg }) Pg.AQE 0x078)
    else none
  else some s

/-- An arm that is taken (R425). -/
def startRun (s : State) (p : Profile) (late : Bool) : State :=
  let s := onAqe s fun a => { a with prof := some p, armLate := late, byCmd := false, missed := 0 }
  match takeSegment s p p.firstSeg with
  | none => dropRun (setFlag s Pg.AQE 3)
  | some s => armRecord s p p.firstSeg (s.hub.tick + 1) 0xFFFFFFFF

/-- A table or fabric arm (R425). -/
def hardArm (s : State) (p : Nat) (late : Bool) : State :=
  if runActive s then bump s Pg.AQE 0x068
  else
    let pr := profileOf s p
    if !s.en Pg.AQE || profileBad s pr then s else startRun s pr late

/-- Complete the capturing record at `endTick` (R429, R433, R437, R438): results, header, HELD. -/
def closeRecord (s : State) (p : Profile) (r : AqeRecord) (endTick : Nat) : State :=
  let inside (t : Nat) : Bool := decide (t < endTick * 32)
  let evs := s.aqe.events.filter fun e => match e with
    | .edge _ _ t _ _ => inside t
    | .value _ t _ => inside t
  let entries := if r.ovf then r.entries else r.entries.filter fun e => inside (entryTime e)
  let pair := nearestPair s r.trigTime
  let r := { r with endTick := endTick, entries := entries, pair := pair, noPair := pair.isNone
                    mark := if pair.isSome then markBefore s r.trigTime else 0
                    multi := entries.any fun e => match e with
                      | .dig _ _ m _ => m
                      | _ => false
                    coarse := r.coarse || entries.any fun e => match e with
                      | .dig _ _ _ c => c
                      | _ => false }
  let lost := s.aqe.lostEdges
  let (ms, s) := (List.range 8).foldl (fun (acc : List MeasResult × State) u =>
    let (m, s) := measure acc.2 p r evs lost u
    (acc.1 ++ [m], s)) ([], s)
  let s := ((List.range 8).zip ms).foldl (showResult r.rseq) s
  let s := onAqe s fun a =>
    { a with held := storeInsert a.held r.segment { r with meas := ms }, cur := none, events := [] }
  setFlag (bump s Pg.AQE 0x040) Pg.AQE 1

/-- After a record, the run goes to its next segment or ends (R426, R430). -/
def nextRecord (s : State) (p : Profile) (r : AqeRecord) (endTick : Nat) (ovf : Bool) : State :=
  let last := p.firstSeg + p.nseg - 1
  if !p.rearm || (r.segment = last && !p.ring) then dropRun s
  else
    let seg := if r.segment = last then p.firstSeg else r.segment + 1
    match takeSegment s p seg with
    | none => dropRun (setFlag s Pg.AQE 3)
    | some s =>
      onAqe s fun a =>
        { a with phase := .rearm, seg := seg, armTick := endTick + if ovf then 94 else 30, dead := endTick }

/-- A capturing record ends within its run. -/
def endRecord (s : State) (p : Profile) (r : AqeRecord) (endTick : Nat) : State :=
  nextRecord (closeRecord s p r endTick) p r endTick r.ovf

/-- A run ends before its time: a capturing record is kept ABORTED (R426, R429). -/
def endRun (s : State) : State :=
  match s.aqe.prof, s.aqe.cur with
  | some p, some r => dropRun (closeRecord s p { r with aborted := true } s.hub.tick)
  | some _, none => dropRun s
  | none, _ => s

/-- The queue and segment room for one more entry (R435, R436). -/
def queueRoom (s : State) : Nat := s.aqe.queueLen - (s.hub.tick - s.aqe.queueTick)

/-- An entry of the capturing record arrives: stored, or it ends the record with SEG_FULL or an overflow mark. -/
def storeEntry (s : State) (e : AqeEntry) (chans : BitVec 16) (slots : BitVec 8) : State :=
  match s.aqe.prof, s.aqe.cur with
  | some p, some r =>
    if 64 ≤ queueRoom s then
      let r := { r with entries := r.entries ++ [.ovf (entryTime e) chans slots], ovf := true }
      endRecord (setFlag (bump s Pg.AQE 0x058) Pg.AQE 0) p r s.hub.tick
    else
      let s := onAqe s fun a => { a with queueLen := queueRoom s + 1, queueTick := s.hub.tick }
      let entries := putEntry r.entries e
      if usableEntries s < (packEntries r.trigTime entries).length then endRecord s p { r with segFull := true } s.hub.tick
      else onAqe s fun a => { a with cur := some { r with entries := entries } }
  | _, _ => s

/-- Start the waiting record by FORCE or TIMEOUT. -/
def startWaiting (s : State) (cause time : Nat) : State :=
  match s.aqe.prof with
  | some p => startRecord s p cause time false (cause = 5) (cause = 6)
  | none => s

/-- ARM_TIMEOUT (R427). Before its tick the event does not occur (log 137). -/
def doArmTimeout (s : State) : State :=
  match s.aqe.prof with
  | some p => if s.aqe.phase = .armed && p.armTmoMs ≠ 0 && decide (s.aqe.armTick + p.armTmoMs * 50000 ≤ s.hub.tick) then
      startWaiting s 6 ((s.aqe.armTick + p.armTmoMs * 50000) * 32) else s
  | none => s

/-! ## Changes of the inputs (R422, R427, R429) -/

/-- A trigger of the profile's source that is not accepted (R427). -/
def missTrigger (s : State) : State := onAqe (bump s Pg.AQE 0x050) fun a => { a with missed := a.missed + 1 }

/-- The edge of lane `lane` to level `up` is of the profile's trigger source. -/
def isTrigger (p : Profile) (lane : Nat) (up : Bool) : Bool :=
  let edge := p.edge = 2 || (p.edge = 0 && up) || (p.edge = 1 && !up)
  edge && (if p.trigSrc = 0 then lane = 16 else if p.trigSrc = 1 then lane = 17
    else if p.trigSrc = 3 then lane = p.trigDch else false)

/-- Mark which changes of one tick the lanes tag: one rising and one falling edge of each (R422). Answers the tagged
changes and the lanes of the others. -/
def tagLanes : List LaneChange → List (Nat × Bool) → List LaneChange × List Nat
  | [], _ => ([], [])
  | c :: t, seen =>
    if seen.contains (c.lane, c.level) then
      let (a, b) := tagLanes t seen
      (a, c.lane :: b)
    else
      let (a, b) := tagLanes t ((c.lane, c.level) :: seen)
      (c :: a, b)

/-- Changes of one tag: the levels after it, triggers, and the entry of the capturing record. -/
def takeTag (s : State) (cs : List LaneChange) (phase : Nat) : State :=
  let coarse := s.clk.recal
  let time := s.hub.tick * 32 + phase
  let s := onAqe s fun a =>
    { a with levels := cs.foldl (fun l c =>
        if c.level then l ||| BitVec.ofNat 18 (2 ^ c.lane) else l &&& ~~~ BitVec.ofNat 18 (2 ^ c.lane)) a.levels }
  let rising := (cs.filter fun c => c.level && decide (16 ≤ c.lane)).map fun c => 69 + (c.lane - 16)
  let s := if rising.isEmpty then s else pulse s rising
  -- the trigger of a waiting record, and the triggers missed
  let s := cs.foldl (fun s c =>
    match s.aqe.prof with
    | none => s
    | some p =>
      if isTrigger p c.lane c.level then
        if s.aqe.phase = .armed && decide (s.aqe.armTick * 32 ≤ time) then startRecord s p p.trigSrc time coarse false false
        else missTrigger s
      else s) s
  -- the entry
  match s.aqe.cur with
  | none => s
  | some r =>
    let mine := cs.filter fun c => decide (c.lane < 16) && r.dchEn.getLsbD c.lane
    if mine.isEmpty || decide ((r.trigTime / 32 + s.aqe.prof.elim 0 Profile.postTicks) * 32 ≤ time) then s
    else
      let multi := mine.any fun c => s.aqe.multiPend.getLsbD c.lane
      let chans : BitVec 16 := mine.foldl (fun m c => m ||| BitVec.ofNat 16 (2 ^ c.lane)) 0
      let evs := mine.map fun c => MeasEvent.edge c.lane c.level time (s.aqe.multiPend.getLsbD c.lane) coarse
      let s := if time < r.trigTime then s else onAqe s fun a => { a with events := a.events ++ evs }
      if time ≤ r.trigTime then
        onAqe s fun a => { a with cur := some { r with init := (a.levels.setWidth 16) &&& r.dchEn } }
      else
        let s := onAqe s fun a => { a with multiPend := a.multiPend &&& ~~~ chans }
        storeEntry s (.dig time ((s.aqe.levels.setWidth 16) &&& r.dchEn) multi coarse) chans 0

/-- SRC and INV of a channel (R421). -/
def dchSrc (s : State) (n : Nat) : Nat := s.fld Pg.AQE (Off.AQE_DCH_SRC (n / 4)) (8 * (n % 4) + 5) (8 * (n % 4))
def dchInv (s : State) (n : Nat) : Bool := s.bit Pg.AQE (Off.AQE_DCH_SRC (n / 4)) (8 * (n % 4) + 6)

/-- The lanes that see a pin, with the level each sees: the channels whose SRC selects it, and the trigger lanes (R421). -/
def lanesOf (s : State) (c : TagChange) : List LaneChange :=
  let phase := if s.clk.recal then 0 else c.phase % 32
  ((List.range 16).filterMap fun n =>
    if dchSrc s n = c.pin then some { lane := n, level := xor c.level (dchInv s n), phase := phase } else none) ++
  (if c.pin = 32 ∨ c.pin = 33 then [{ lane := c.pin - 16, level := c.level, phase := phase }] else [])

/-- A write of DCH_SRC: the channels take the pins now selected. -/
def dchWritten (s : State) : State :=
  let set (l : BitVec 18) (n : Nat) : BitVec 18 :=
    if xor (s.aqe.pins.getLsbD (dchSrc s n)) (dchInv s n) then l ||| BitVec.ofNat 18 (2 ^ n) else l &&& ~~~ BitVec.ofNat 18 (2 ^ n)
  onAqe s fun a => { a with levels := (List.range 16).foldl set a.levels }

/-- TAGGED_CHANGE: the changes of the inputs in one tick, as the lanes see them (R422). The GPI block samples the pins as they
stand at its end (R413). -/
def doTaggedChange (pins : List TagChange) (s : State) : State :=
  let pins := pins.filter fun c => decide (c.pin < 35)
  let s := onAqe s fun a => { a with pins := pins.foldl (fun (l : BitVec 35) c =>
    if c.level then l ||| BitVec.ofNat 35 (2 ^ c.pin) else l &&& ~~~ BitVec.ofNat 35 (2 ^ c.pin)) a.pins }
  let s := { s with bus := { s.bus with gpiRaw := pins.foldl (fun (w : Word) c =>
    if c.pin < 32 then Word.setBit w c.pin (c.level ≠ s.bit Pg.GPIO Off.GPIO_GPI_INV c.pin) else w) s.bus.gpiRaw } }
  let changes := pins.flatMap (lanesOf s)
  let (tagged, rest) := tagLanes changes []
  -- a pin trigger goes before the timeout of its tick
  let triggers := s.aqe.prof.any fun p => tagged.any fun c => isTrigger p c.lane c.level
  let s := if tagged.isEmpty || triggers then s else doArmTimeout s
  let s := (List.range 32).foldl (fun s ph =>
    let cs := tagged.filter fun c => decide (c.phase = ph)
    if cs.isEmpty then s else takeTag s cs ph) s
  let chans : BitVec 16 := rest.foldl (fun m l => if l < 16 then m ||| BitVec.ofNat 16 (2 ^ l) else m) 0
  -- the level after the tick is the sampled level at its end
  let s := onAqe s fun a =>
    { a with levels := changes.foldl (fun l c =>
        if c.level then l ||| BitVec.ofNat 18 (2 ^ c.lane) else l &&& ~~~ BitVec.ofNat 18 (2 ^ c.lane)) a.levels
             multiPend := a.multiPend ||| chans, lostEdges := a.lostEdges ||| chans }
  if rest.isEmpty then s else setFlag (bumpBy s Pg.AQE 0x060 rest.length) Pg.AQE 5

/-- A new current value of stream `m` (R423). -/
def aqeValue (s : State) (m : Nat) (v : Word) : State :=
  (List.range 8).foldl (fun s k =>
    if s.fld Pg.AQE (Off.AQE_ANA_SLOT k) 5 0 ≠ m then s
    else
      match s.aqe.cur, s.aqe.prof with
      | some r, some p =>
        let time := s.hub.tick * 32
        if !r.anaEn.getLsbD k || decide ((r.trigTime / 32 + p.postTicks) * 32 ≤ time) then s
        else if time ≤ r.trigTime then
          onAqe s fun a => { a with lastStored := storePut a.lastStored k 0 v
                                    cur := some { r with anaInit := storePut r.anaInit k 0 v } }
        else
          let s := onAqe s fun a => { a with events := a.events ++ [.value k time v.signed] }
          let last := (storeLook s.aqe.lastStored k 0).signed
          if s.fld Pg.AQE (Off.AQE_ANA_SLOT k) 31 8 < (v.signed - last).natAbs then
            storeEntry (onAqe s fun a => { a with lastStored := storePut a.lastStored k 0 v }) (.ana time k v) 0
              (BitVec.ofNat 8 (2 ^ k))
          else s
      | _, _ => s) s

/-! ## Commands of the engine -/

/-- An arm by AQE_CMD: its page code, 0 when the arm is taken (R425). -/
def armCheck (s : State) (p : Nat) : Nat :=
  if runActive s then 0x01 else if profileBad s (profileOf s p) then 0x02 else 0

/-- A record waits for its trigger. -/
def recordWaits (s : State) : Bool := s.aqe.phase = .armed && decide (s.aqe.armTick ≤ s.hub.tick)

/-- AQE_CMD judged (R425 to R427). -/
def aqeCmdCheck (s : State) (w : Word) : Nat :=
  if w.bit 0 ∧ armCheck s (w.fld 3 1) ≠ 0 then armCheck s (w.fld 3 1)
  else if w.bit 4 ∧ !recordWaits s then 0x05
  else 0

/-- AQE_CMD as it acts. A software arm is taken only while the page is enabled. -/
def aqeCmdApply (w : Word) (s : State) : State :=
  let s := if w.bit 0 && s.en Pg.AQE then onAqe (startRun s (profileOf s (w.fld 3 1)) false) fun a => { a with byCmd := true }
    else s
  let s := if w.bit 4 then startWaiting s 5 (s.hub.tick * 32) else s
  if w.bit 5 then endRun s else s

/-- RECORD_END: the record reaches TRIG_TICK + POST_TICKS (R429). Before that tick the event does not occur (log 137). -/
def doRecordEnd (s : State) : State :=
  match s.aqe.prof, s.aqe.cur with
  | some p, some r =>
    if r.trigTime / 32 + p.postTicks ≤ s.hub.tick then endRecord s p r (r.trigTime / 32 + p.postTicks) else s
  | _, _ => s

/-- REARM: the next record of the run is armed, within its bound after END_TICK (R430). -/
def doRearm (s : State) : State :=
  match s.aqe.prof with
  | some p =>
    if s.aqe.phase = .rearm then
      let tick := min (max s.hub.tick s.aqe.dead) s.aqe.armTick
      armRecord s p s.aqe.seg tick (min 0xFFFFFFFF (tick - s.aqe.dead))
    else s
  | none => s

/-- What falls due in the engine as a tick begins: the timeout of an earlier tick, which no pin trigger has forestalled, the end
of the record, and the bound within which the next one is armed (R427, R429, R430). -/
def engineTick (s : State) : State :=
  let s := if s.aqe.prof.any fun p => decide (s.aqe.armTick + p.armTmoMs * 50000 < s.hub.tick) then doArmTimeout s else s
  let s := doRecordEnd s
  if s.aqe.phase = .rearm && decide (s.aqe.armTick ≤ s.hub.tick) then doRearm s else s

/-- AQE_ARM: an arm launched by the Timed Action Table arrives (R425). -/
def doAqeArm (s : State) : State :=
  match s.tat.arms with
  | [] => s
  | (p, late) :: t => hardArm { s with tat := { s.tat with arms := t } } p late

/-- TRIG_OUT_PULSE_END (R431): WIDTH_TICKS have passed. -/
def doTrigOutPulseEnd (s : State) : State :=
  onAqe s fun a => { a with toutPulse := a.toutPulse.filter fun p => decide (s.hub.tick < p.2) }

/-- The level of TRIG_OUT, none while it is high-impedance (R431, Table 15.4). -/
def pinTrigOut (s : State) : Option Bool :=
  let c := s.reg Pg.AQE Off.AQE_TOUT_CFG
  if !c.bit 2 then none
  else
    let lvl := if c.fld 1 0 = 0 then false
      else if c.fld 1 0 = 2 then recordWaits s
      else s.aqe.toutPulse.any fun p => decide (p.1 ≤ s.hub.tick ∧ s.hub.tick < p.2)
    some (lvl ≠ c.bit 3)

/-- SEG_CMD FREE (R440). -/
def segFreeCheck (s : State) : Nat := if segState s (s.fld Pg.AQE Off.AQE_SEG_SEL 11 0) = 1 then 0x04 else 0
def segFree (s : State) : State :=
  onAqe s fun a => { a with held := storeErase a.held (s.fld Pg.AQE Off.AQE_SEG_SEL 11 0) }

/-! ## Registers of the pages (R424, R444, R445) -/

/-- The page code of an AQE write. -/
def aqeCheck (s : State) (off : Nat) (old w : Word) : Nat :=
  if off = Off.AQE_AQE_CFG then
    if old.fld 3 0 = w.fld 3 0 then 0
    else if runActive s then 0x01
    else if !s.aqe.held.isEmpty then 0x06
    else 0
  else if off = Off.AQE_AQE_CMD then aqeCmdCheck s w
  else if 0x120 ≤ off ∧ off < 0x160 then
    if runActive s then 0x01
    else if off < 0x130 ∧ (List.range 4).any fun i => decide (34 < w.fld (8 * i + 5) (8 * i)) then 0x03
    else 0
  else if off = Off.AQE_SEG_CMD then if w.bit 0 then segFreeCheck s else 0
  else 0

/-- The page code of a MEAS write (R437). -/
def measCheck (off : Nat) (w : Word) : Nat :=
  if off = Off.MEAS_MEAS_CFG then
    let f := w.fld 3 0
    if 10 ≤ f ∨ (w.bit 4 ∧ 1 ≤ f ∧ f ≤ 5) ∨ (!w.bit 4 ∧ 6 ≤ f) ∨ (w.bit 4 ∧ 7 < w.fld 11 8) then 0x01 else 0
  else 0

/-- AQE_STAT, SEG_COUNTS, SEG_INFO. -/
def aqeStat (s : State) : Word :=
  let ph := match s.aqe.phase with
    | .idle => 0
    | .armed => 1
    | .capture => 2
    | .rearm => 3
  Word.place 1 0 ph ||| Word.place 4 2 (s.aqe.prof.elim 0 Profile.idx) ||| Word.place 27 16 s.aqe.seg
def segCounts (s : State) : Word :=
  let held := s.aqe.held.length
  let act := if s.aqe.phase = .capture then 1 else 0
  Word.place 12 0 (segCount s - held - act) ||| Word.place 28 16 held
def segInfo (s : State) : Word :=
  let n := s.fld Pg.AQE Off.AQE_SEG_SEL 11 0
  let len := match storeFind s.aqe.held n with
    | some r => recordLen r
    | none => 0
  Word.place 20 0 len ||| Word.place 25 24 (segState s n)

/-- A word of the selected window (R440); bytes beyond the record are undefined (R432). -/
def segWindow (s : State) (off : Nat) : Word :=
  let n := s.fld Pg.AQE Off.AQE_SEG_SEL 11 0
  let at_ := s.fld Pg.AQE Off.AQE_SEG_SEL 24 16 * 2048 + (off - 0x800)
  let bs := ((storeFind s.aqe.held n).map recordBytes).getD []
  BitVec.ofNat 32 (beNat ((List.range 4).map fun i =>
    if at_ + i < bs.length then bs.getD (at_ + i) 0 else Config.segmentByte n (at_ + i)))

/-- The AQE page soft reset clears every segment and ends the run, its record discarded (R426, R439). -/
def aqeSoftReset (s : State) : State :=
  onAqe s fun a => { ({} : AqeState) with pins := a.pins, levels := a.levels, rseq := a.rseq, multiPend := a.multiPend }

/-! ## The commands -/

def execAqeArm (s : State) : Host.Outcome State Fault Refusal := done (doAqeArm s)
def execTaggedChange (changes : List TagChange) (s : State) : Host.Outcome State Fault Refusal :=
  done (doTaggedChange changes s)
def execArmTimeout (s : State) : Host.Outcome State Fault Refusal := done (doArmTimeout s)
def execRecordEnd (s : State) : Host.Outcome State Fault Refusal := done (doRecordEnd s)
def execRearm (s : State) : Host.Outcome State Fault Refusal := done (doRearm s)
def execTrigOutPulseEnd (s : State) : Host.Outcome State Fault Refusal := done (doTrigOutPulseEnd s)

end Sys2Proof.Machine
end

