-- ==== Sys2Proof/Machine/Hub.lean ====
section
/-! DEFINITION. Machine/Hub.lean: the always-on sensor hub (chapter 13): the sillage log, wakes and host wakes, alarms,
streams and filters, recognisers, passenger counting, interval closes and batches. The poll sequencer stands in
Machine/Bus.lean, the mover in Machine/Mover.lean. -/

namespace Sys2Proof.Machine

/-! ## Sillage log (R385) -/

/-- Write a sillage record; a full ring loses its oldest unmoved record. -/
def sillPut (s : State) (type phase : Nat) (coarse incPark : Bool) (data : List Byte) : State :=
  let r : SillRec :=
    { type := type, coarse := coarse, incPark := incPark, seq := s.hub.sillSeq, tick := s.hub.tick, phase := phase
      data := data }
  let full := decide (6144 ≤ s.hub.sillage.length)
  let s := onHub s fun h =>
    { h with sillage := (if full then h.sillage.drop 1 else h.sillage) ++ [r], sillSeq := (h.sillSeq + 1) % 65536 }
  let s := bump s Pg.AON 0x048
  if full then setFlag (bump s Pg.AON 0x050) Pg.AON 5 else s

/-- A record without phase or flags. -/
def sillAdd (s : State) (type : Nat) (data : List Byte) : State := sillPut s type 0 false false data

/-! ## Wakes (R10, R383, Table 1.8) -/

/-- The bits that WAKE_CFG lets through. -/
def wakeEnabled (s : State) (bits : BitVec 5) : BitVec 5 := bits &&& BitVec.ofNat 5 (s.fld Pg.AON Off.AON_WAKE_CFG 4 0)

/-- The WAKE record of a tick: one record for all the sources of that tick. -/
def wakeRecord (s : State) (bits : BitVec 5) : State :=
  match s.hub.sillage.getLast? with
  | some r =>
    if r.type = 1 ∧ r.tick = s.hub.tick then
      let old : BitVec 5 := BitVec.ofNat 5 (beNat r.data)
      onHub s fun h => { h with sillage := h.sillage.dropLast ++ [{ r with data := [(old ||| bits).setWidth 8] }] }
    else sillAdd s 1 [bits.setWidth 8]
  | none => sillAdd s 1 [bits.setWidth 8]

/-- Wake sources fire (bits in RST_CAUSE order: recogniser, batch, alarm, WAKE_IN, USB). In PARK they latch a wake; during
a settle of PARK entry they end it in RUN; in HARVEST they are held for the PARK that follows; in BOOT they are
recorded; in RUN they do nothing. -/
def latchWake (s : State) (bits : BitVec 5) : State :=
  let b := wakeEnabled s bits
  if b = 0 then s
  else
    match s.pwr.state with
    | .park =>
      if s.pwr.wait = .none || s.pwr.wait = .hold then
        let first := s.pwr.wakeLatch = 0
        let s := wakeRecord s b
        let s := onPwr s fun p => { p with wakeLatch := p.wakeLatch ||| b }
        let s := setReg s Pg.AON Off.AON_WAKE_SRC (s.pwr.wakeLatch.setWidth 32)
        if first then bump s Pg.AON 0x040 else s
      else wakeRecord s b
    | .harvest => onPwr (wakeRecord s b) fun p => { p with wakeLatch := p.wakeLatch ||| b }
    | .boot => wakeRecord s b
    | .run =>
      match s.pwr.settle with
      | some t => if t.warm then s else onPwr (wakeRecord s b) fun p => { p with settle := some { t with woken := true } }
      | none => s
    | .off => s

/-- A host wake request from `source`: an alarm, or 32 + a recogniser (R384). -/
def hostWake (s : State) (source : Nat) : State :=
  let s := sillAdd s 8 [BitVec.ofNat 8 source]
  let s := if s.bit Pg.AON Off.AON_HOST_WAKE_CFG 0 then onHub s fun h => { h with wakeHost := true } else s
  if s.bit Pg.AON Off.AON_HOST_WAKE_CFG 1 then requestRemoteWake s else s

/-- HOST_WAKE_PULSE_END: a MODE 1 pulse ends (R384). -/
def doHostWakePulseEnd (s : State) : State :=
  if s.bit Pg.AON Off.AON_HOST_WAKE_CFG 2 then onHub s fun h => { h with wakeHost := false } else s

/-! ## Alarms (R363, R364) -/

/-- The alarm fires now: EN is 1 and CMP at or before the AON tick counter. -/
def alarmDue (s : State) (a : Nat) : Bool :=
  decide (a < 4) && s.bit Pg.AON (Off.AON_ALM_CTRL a) 0 && decide (storeLook s.hub.cmp a 0 ≤ s.hub.tick)

/-- ALARM: an alarm reaches CMP. The event does not occur before that (log 137). -/
def doAlarm (a : Nat) (s : State) : State :=
  let ctl := s.reg Pg.AON (Off.AON_ALM_CTRL a)
  if !alarmDue s a then s
  else
    let s := pulse (setFlag s Pg.AON a) [64 + a]
    let s := if ctl.bit 1 then latchWake s 4 else s
    let s := if ctl.bit 2 then hostWake s a else s
    let s := if ctl.bit 3 then sillAdd s 7 [BitVec.ofNat 8 a] else s
    let period := ctl.fld 31 8
    if period = 0 then setBitOf s Pg.AON (Off.AON_ALM_CTRL a) 0 false
    else onHub s fun h =>
      { h with cmp := storePut h.cmp a 0 ((storeLook h.cmp a 0 + period * 50000) % 2 ^ 64) }

/-- A write of ALM_CMP_HIa is staged (R364). -/
def stageCmp (s : State) (a : Nat) (w : Word) : State :=
  onHub s fun h => { h with cmpStaged := storePut h.cmpStaged a 0 w }

/-- A write of ALM_CMP_LOa loads the comparator (R364); a CMP at or before the current tick fires in this tick (R363). -/
def loadCmp (s : State) (a : Nat) (w : Word) : State :=
  doAlarm a (onHub s fun h => { h with cmp := storePut h.cmp a 0 ((storeLook h.cmpStaged a 0).toNat * 2 ^ 32 + w.toNat) })

/-! ## Batches (R378, R379) -/

def State.strCfg (s : State) (m : Nat) : Word := s.reg Pg.BAT (Off.BAT_STR_CFG m)
def State.batchesOf (s : State) (m : Nat) : StreamBatches := storeLook s.hub.batches m {}
def setBatches (s : State) (m : Nat) (b : StreamBatches) : State :=
  onHub s fun h => { h with batches := storePut h.batches m {} b }

/-- Blocks that a stream holds; batches a Harvest carried hold none. -/
def heldBlocks (b : StreamBatches) : Nat :=
  (if b.open?.isSome then 1 else 0) + (b.closed.filter fun c => !c.carried).length

/-- A WAKE-policy stream reaches HWM_PCT of its quota, or falls below it (R379). -/
def hwmUpdate (s : State) (m : Nat) : State :=
  let q := s.fld Pg.BAT (Off.BAT_STR_BATCH m) 8 0
  let hit := !(s.strCfg m).bit 25 && q ≠ 0 &&
    decide (s.fld Pg.BAT Off.BAT_BAT_CFG 22 16 * q ≤ 100 * heldBlocks (s.batchesOf m))
  if hit && !s.hub.hwm.contains m then
    let s := onHub s fun h => { h with hwm := setAdd h.hwm m }
    if s.pwr.state = .park then latchWake s 2 else s
  else if hit then s
  else if s.hub.hwm.contains m then onHub s fun h => { h with hwm := setDel h.hwm m }
  else s

/-- Close a stream's open batch. -/
def closeBatch (s : State) (m : Nat) (cfg : Bool) : State :=
  let b := s.batchesOf m
  match b.open? with
  | none => s
  | some o => bump (setBatches s m { b with open? := none, closed := b.closed ++ [{ o with cfgChanged := cfg }] }) Pg.BAT 0x048

/-- Put a sample or a marker into a stream's open batch, opening one when there is none (R378, R379). -/
def emit (s : State) (m : Nat) (mark : Bool) (v : Word) : State :=
  let cfg := s.strCfg m
  if !s.en Pg.BAT || !cfg.bit 24 then s
  else
    let q := s.fld Pg.BAT (Off.BAT_STR_BATCH m) 8 0
    let b := s.batchesOf m
    let opened : Option State :=
      if b.open?.isSome then some s
      else if heldBlocks b < q then
        some (setBatches s m { b with open? := some { entries := [], ringLoss := b.lossOwed }, lossOwed := false })
      else if cfg.bit 25 then
        match b.closed.findIdx? (fun c => !c.carried) with
        | some i =>
          let b := { b with open? := some { entries := [], ringLoss := true }, closed := b.closed.eraseIdx i
                            lossOwed := false }
          some (setFlag (bump (setBatches s m b) Pg.BAT 0x058) Pg.BAT 1)
        | none => none
      else none
    match opened with
    | none => setFlag (bump s Pg.BAT 0x060) Pg.BAT 2
    | some s =>
      let b := s.batchesOf m
      let o := b.open?.getD { entries := [] }
      let o := { o with entries := o.entries ++ [{ tick := s.hub.tick, mark := mark, value := v }] }
      let s := setBatches s m { b with open? := some o }
      let s := if s.fld Pg.BAT (Off.BAT_STR_BATCH m) 22 16 ≤ o.entries.length then closeBatch s m false else s
      hwmUpdate s m

/-- BATCH_MS have passed since the first entry of a stream's open batch (R378). -/
def batchDue (s : State) (m : Nat) : Bool :=
  match (s.batchesOf m).open? with
  | some b => b.entries.head?.any fun e => decide (e.tick + s.fld Pg.BAT (Off.BAT_STR_MS m) 15 0 * 50000 ≤ s.hub.tick)
  | none => false

/-- BATCH_CLOSE (R378). The event does not occur before its time (log 137). -/
def doBatchClose (m : Nat) (s : State) : State := if batchDue s m then closeBatch s m false else s

/-! ## Filters (R371, Table 13.5) -/

/-- The median of three. -/
def median3 (a b c : Int) : Int := max (min a b) (min (max a b) c)

/-- The output of a filter for input `x`, and the state it leaves; `hist` holds the earlier inputs, newest first. -/
def filterStep (kind param : Nat) (st : StreamState) (x : Int) : Int × StreamState :=
  let hist := x :: st.hist
  match kind with
  | 1 =>
    let h := hist.take param
    ((h.foldl (· + ·) 0).tdiv (h.length : Int), { st with hist := h })
  | 2 =>
    match hist with
    | a :: b :: c :: _ => (median3 a b c, { st with hist := [a, b, c] })
    | _ => (x, { st with hist := hist })
  | 3 =>
    let y := if st.hist.isEmpty then x else st.iir + (x - st.iir) / (2 ^ param : Int)
    (y, { st with hist := [x], iir := y })
  | _ => (x, st)

/-! ## Recognisers (R372 to R375) -/

def State.recCfg (s : State) (r : Nat) : Word := s.reg Pg.REC (Off.REC_REC_CFG0 r)
def State.recog (s : State) (r : Nat) : RecogState := storeLook s.hub.recogs r {}
def setRecog (s : State) (r : Nat) (x : RecogState) : State :=
  onHub s fun h => { h with recogs := storePut h.recogs r {} x }
def State.streamVal (s : State) (m : Nat) : Word := (storeLook s.hub.streams m {}).value

/-- A counter group's register: 0 BOARD, 1 ALIGHT, 2 LBOARD, 3 LALIGHT (R376). -/
def groupOff (g k : Nat) : Nat := 0x600 + 16 * g + 4 * k

/-- What the present tick has counted and latched so far; a new tick starts it over (R377). -/
def tickCounts (s : State) : State :=
  if s.hub.countTick = s.hub.tick then s
  else onHub s fun h => { h with countTick := h.tick, counting := [], latched := [] }

/-- The counts of a group in the present tick, from its registers where it has none yet. -/
def State.tickCount (s : State) (g : Nat) : TickCount :=
  (storeFind s.hub.counting g).getD { board := s.reg Pg.REC (groupOff g 0), alight := s.reg Pg.REC (groupOff g 1) }

/-- OCCUPANCY takes a value: the interval records of the present tick carry it at the tick's end (Table 13.8). -/
def setOccupancy (s : State) (v : Word) : State :=
  onHub (setReg s Pg.REC Off.REC_OCCUPANCY v) fun h =>
    { h with intervals := h.intervals.map fun r => if r.tick = h.tick then { r with occupancy := v } else r }

/-- Count one boarding or alighting, saturating, with OCCUPANCY (R376). -/
def countPassenger (s : State) (g : Nat) (board : Bool) : State :=
  let s := tickCounts s
  let c := s.tickCount g
  let c := if board then { c with boards := c.boards + 1 } else { c with alights := c.alights + 1 }
  let s := onHub s fun h => { h with counting := storeInsert h.counting g c }
  let off := groupOff g (if board then 0 else 1)
  let v := s.reg Pg.REC off
  let s := setReg s Pg.REC off (if v = 0xFFFFFFFF then v else v + 1)
  let o := s.reg Pg.REC Off.REC_OCCUPANCY
  setOccupancy s (if board then o + 1 else o - 1)

/-- A write of OCCUPANCY: it applies before the increments of the same tick (R376). -/
def occupancyWritten (s : State) (v : Word) : State :=
  let s := tickCounts s
  let up := sumBy (fun e => e.2.boards) s.hub.counting
  let down := sumBy (fun e => e.2.alights) s.hub.counting
  setOccupancy s (v + BitVec.ofNat 32 up - BitVec.ofNat 32 down)

/-- A recogniser fires: its outputs (R375, Table 13.7, R387). -/
def recFire (s : State) (r : Nat) : State :=
  let cfg := s.recCfg r
  let kind := cfg.fld 2 0
  let s := setFlag (bump s Pg.REC 0x040) Pg.REC r
  let s := setRecog s r { s.recog r with lastFire := some s.hub.tick }
  let s := if cfg.bit 16 then pulse s [32 + r] else s
  let s := if cfg.bit 17 then latchWake s 1 else s
  let s := if cfg.bit 18 then hostWake s (32 + r) else s
  let s := if cfg.bit 19 then
      emit s (s.fld Pg.REC (Off.REC_REC_CFG3 r) 13 8) true (BitVec.ofNat 32 r)
    else s
  let park := cfg.bit 23 && !s.coreOn
  let s := if cfg.bit 20 || park then
      -- the input value of a recogniser without a stream is not stated
      let (v, s) := if 1 ≤ kind ∧ kind ≤ 3 then (s.streamVal (cfg.fld 9 4), s)
        else
          let (n, s) := drawFree s
          (Config.freeWord n, s)
      sillPut s 2 0 false park ([BitVec.ofNat 8 r, 0, 0, 0] ++ v.bytes)
    else s
  let s := if cfg.bit 21 then countPassenger s (cfg.fld 28 24) true else s
  if cfg.bit 22 then countPassenger s (cfg.fld 28 24) false else s

/-- Group of a recogniser; 0 none. -/
def State.recGroup (s : State) (r : Nat) : Nat := (s.recCfg r).fld 15 12

/-- What one tick's evaluation has gathered: recognisers that fired, and groups that did. -/
structure RecTick where
  fired : List Nat := []
  groups : List Nat := []
  deriving DecidableEq, Repr

/-- The state of a recogniser becomes `now`: a rise fires it, unless a member of its group has fired in the tick (R373; all kinds:
DEDUCED, log 138), or it is suppressed within its hold-off (R372). -/
def recState (s : State) (g : RecTick) (r tick : Nat) (now : Bool) : RecTick × State :=
  let x := s.recog r
  let s := setRecog s r { x with state := now }
  let grp := s.recGroup r
  let fires : RecTick × State :=
    ({ fired := g.fired ++ [r], groups := if grp = 0 then g.groups else grp :: g.groups }, recFire s r)
  if x.state || !now then (g, s)
  else if grp ≠ 0 ∧ g.groups.contains grp then
    let kind := (s.recCfg r).fld 2 0
    (g, if kind = 4 ∨ kind = 5 then setRecog s r x else s)
  else
    let hold := s.fld Pg.REC (Off.REC_REC_CFG3 r) 31 16 * 50000
    match x.lastFire with
    | some t => if tick < t + hold then (g, bump s Pg.REC 0x048) else fires
    | none => fires

/-- One input event of a tick, as terms name it: a GPI edge or a firing (R373). -/
structure RecEvent where
  /-- 0 to 31 a GPI input, 32 + r a firing -/
  input : Nat
  rising : Bool := true
  deriving DecidableEq, Repr

def State.recTerm (s : State) (r i : Nat) : Word := s.reg Pg.REC (0x800 + 32 * r + 4 * i)

/-- An event matches term `i`. -/
def termMatches (s : State) (r i : Nat) (e : RecEvent) : Bool :=
  let t := s.recTerm r i
  t.bit 7 && decide (t.fld 5 0 = e.input) && (decide (32 ≤ e.input) || (t.bit 6 ≠ e.rising))

/-- The number of terms of a SEQ: up to the first that is not VALID. -/
def termCount (s : State) (r : Nat) : Nat :=
  ((List.range 8).find? fun i => !(s.recTerm r i).bit 7).getD 8

/-- A SEQ takes one event (R373): its new progress and match tick, and whether it would fire. -/
def seqStep (s : State) (r tick : Nat) (e : RecEvent) (x : RecogState) : Bool × RecogState :=
  let n := termCount s r
  let i := x.progress
  let next := i ≠ 0 && termMatches s r i e && tick ≠ x.matchTick &&
    decide (tick ≤ x.matchTick + (s.recTerm r i).fld 31 16 * 50000)
  if n < 2 then (false, x)
  else if next then
    if i + 1 = n then (true, { x with progress := 0, matchTick := tick })
    else (false, { x with progress := i + 1, matchTick := tick })
  else if termMatches s r 0 e then (false, { x with progress := 1, matchTick := tick })
  else (false, x)

/-- The state that a stream-driven recogniser's value gives it (Table 13.6). -/
def streamState (s : State) (r : Nat) (kind : Nat) (v : Int) (x : RecogState) : Bool × RecogState :=
  let hi := (s.reg Pg.REC (Off.REC_REC_CFG1 r)).signed
  let lo := (s.reg Pg.REC (Off.REC_REC_CFG2 r)).signed
  let inv := (s.recCfg r).bit 3
  if kind = 1 then
    let up := if inv then decide (v < lo) else decide (hi < v)
    let down := if inv then decide (hi < v) else decide (v < lo)
    (if up then true else if down then false else x.state, x)
  else if kind = 2 then
    let inside := decide (lo ≤ v ∧ v ≤ hi)
    (if inv then !inside else inside, x)
  else
    let d := s.fld Pg.REC (Off.REC_REC_CFG3 r) 4 0
    let vs := (v :: x.values).take (d + 1)
    let x := { x with values := vs }
    match vs[d]? with
    | some w => (if inv then decide (v - w < lo) else decide (hi < v - w), x)
    | none => (false, x)

/-- The state that a COMBO's sources give it: lower-indexed ones as they stand, higher-indexed ones as they stood. -/
def comboState (s : State) (r : Nat) (before : List Bool) : Bool :=
  let c := s.reg Pg.REC (Off.REC_REC_CFG1 r)
  let srcs := (List.range 4).filterMap fun i =>
    let f := c.fld (6 * i + 5) (6 * i)
    if 32 ≤ f then some (f % 32) else none
  let at_ (k : Nat) : Bool := if k < r then (s.recog k).state else before.getD k false
  if s.bit Pg.REC (Off.REC_REC_CFG2 r) 0 then srcs.any at_ else !srcs.isEmpty && srcs.all at_

/-- Evaluate recogniser `r` in one tick (R372 to R374). -/
def recEval (tick : Nat) (events : List RecEvent) (values : List Nat) (before : List Bool)
    (acc : RecTick × State) (r : Nat) : RecTick × State :=
  let (g, s) := acc
  let cfg := s.recCfg r
  match cfg.fld 2 0 with
  | 0 => acc
  | 4 =>
    let x := { s.recog r with state := false }
    let (hit, x) := events.foldl (fun (a : Bool × RecogState) e =>
      let (f, x) := seqStep s r tick e a.2
      (a.1 || f, x)) (false, x)
    let s := setRecog s r x
    if hit then recState s g r tick true else (g, s)
  | 5 =>
    let x := { s.recog r with state := false }
    let n := (events.filter fun e => termMatches s r 0 e).length
    let w := (s.reg Pg.REC (Off.REC_REC_CFG2 r)).toNat * 50000
    let c := (x.counted ++ List.replicate n tick).filter fun t => decide (tick ≤ t + w)
    if n ≠ 0 ∧ s.fld Pg.REC (Off.REC_REC_CFG1 r) 15 0 ≤ c.length then
      recState (setRecog s r { x with counted := [] }) g r tick true
    else (g, setRecog s r { x with counted := c })
  | 6 => recState s g r tick (comboState s r before)
  | k =>
    if values.contains (cfg.fld 9 4) && decide (k ≤ 3) then
      let (now, x) := streamState s r k (s.streamVal (cfg.fld 9 4)).signed (s.recog r)
      recState (setRecog s r x) g r tick now
    else acc

/-- Evaluate every recogniser in one tick, ascending, and reset the groups that fired. -/
def recTickEval (s : State) (tick : Nat) (events : List RecEvent) (values : List Nat) : List Nat × State :=
  let before := (List.range 32).map fun r => (s.recog r).state
  let (g, s) := (List.range 32).foldl (recEval tick events values before) ({}, s)
  let s := (List.range 32).foldl (fun s r =>
    if (s.recCfg r).fld 2 0 = 4 ∧ s.recGroup r ≠ 0 ∧ g.groups.contains (s.recGroup r) then
      setRecog s r { s.recog r with progress := 0 }
    else s) s
  (g.fired, s)

/-- A recogniser whose state is 1 in its firing tick only, or that follows such a one, still shows it. -/
def recSettled (s : State) (fired : List Nat) : Bool := fired.isEmpty && (List.range 32).all fun r =>
  !(((s.recCfg r).fld 2 0 = 4 || (s.recCfg r).fld 2 0 = 5) && (s.recog r).state)

/-- The recognisers evaluate an input of one tick, and each firing reaches the others in the tick after it, until no more
do; `fuel` bounds the ticks. -/
def recRun : Nat → State → Nat → List RecEvent → List Nat → State
  | 0, s, _, _, _ => s
  | fuel + 1, s, tick, events, values =>
    let (fired, s) := recTickEval s tick events values
    if recSettled s fired then s
    else recRun fuel s (tick + 1) (fired.map fun r => { input := 32 + r }) []

/-- Input events reach the recognisers (R372). They evaluate only while the REC page is enabled (Table 3.20). -/
def recInput (s : State) (events : List RecEvent) (values : List Nat) : State :=
  if s.en Pg.REC then recRun 64 s s.hub.tick events values else s

/-- The gap of a SEQ's next term has expired (R373). -/
def gapPast (s : State) (r : Nat) : Bool :=
  let x := s.recog r
  x.progress ≠ 0 && decide (x.matchTick + (s.recTerm r x.progress).fld 31 16 * 50000 < s.hub.tick)

/-- SEQ_TIMEOUT: a SEQ whose gap has expired restarts and is counted; the events that a COUNT's window has left behind go
(R372 to R374). -/
def doSeqTimeout (r : Nat) (s : State) : State :=
  let x := s.recog r
  let kind := (s.recCfg r).fld 2 0
  if 32 ≤ r ∨ s.en Pg.REC = false then s
  else if kind = 4 ∧ gapPast s r then bump (setRecog s r { x with progress := 0 }) Pg.REC 0x050
  else if kind = 5 then
    let w := (s.reg Pg.REC (Off.REC_REC_CFG2 r)).toNat * 50000
    setRecog s r { x with counted := x.counted.filter fun t => decide (s.hub.tick ≤ t + w) }
  else s

/-! ## Samples (R371) -/

/-- A sample enters stream `m`. -/
def sample (s : State) (m : Nat) (x : Word) : State :=
  let cfg := s.strCfg m
  let s := bump s Pg.BAT 0x040
  let st := storeLook s.hub.streams m {}
  let (y, st) := filterStep (cfg.fld 2 0) (cfg.fld 14 8) st x.signed
  let y := BitVec.ofInt 32 y
  let n := st.outs + 1
  let due := cfg.fld 23 16 ≤ n
  let st := { st with value := y, outs := if due then 0 else n }
  let s := onHub s fun h => { h with streams := storePut h.streams m {} st }
  let s := if due then emit s m false y else s
  recInput (aqeValue s m y) [] [m]

/-! ## Interval closes (R377) -/

/-- The size of an interval record in the queue. -/
def ivlSize (r : IvlRec) : Nat := 32 + 12 * r.groups.length

/-- Append an interval record; a full queue of 32 KiB loses its oldest. -/
def queueIvl : Nat → State → IvlRec → State
  | 0, s, _ => s
  | fuel + 1, s, r =>
    if sumBy ivlSize s.hub.intervals + ivlSize r ≤ 32768 then onHub s fun h => { h with intervals := h.intervals ++ [r] }
    else queueIvl fuel (bump (onHub s fun h => { h with intervals := h.intervals.drop 1 }) Pg.REC 0x060) r

/-- Latch one counter group: the counts as they stood before this tick, 0 when an earlier close of the tick has latched it; the
tick's own increments stay live (R377). -/
def latchGroup (s : State) (g : Nat) : State :=
  let c := s.tickCount g
  let again := s.hub.latched.contains g
  let s := setReg s Pg.REC (groupOff g 2) (if again then 0 else c.board)
  let s := setReg s Pg.REC (groupOff g 3) (if again then 0 else c.alight)
  let s := setReg (setReg s Pg.REC (groupOff g 0) (BitVec.ofNat 32 c.boards)) Pg.REC (groupOff g 1) (BitVec.ofNat 32 c.alights)
  onHub s fun h => { h with counting := storeInsert h.counting g c, latched := setAdd h.latched g }

/-- One INTERVAL_CLOSE takes effect in the present tick. -/
def closeInterval (s : State) (c : CloseAction) : State :=
  let gs := (List.range 32).filter fun g => c.mask.bit g
  let s := tickCounts s
  let s := overList latchGroup gs s
  let s := setReg (setReg s Pg.REC Off.REC_LATCH_TICK_LO (lo32 s.hub.tick)) Pg.REC Off.REC_LATCH_TICK_HI (hi32 s.hub.tick)
  let r : IvlRec :=
    { late := c.late, mask := c.mask, tick := s.hub.tick, ns := c.firedNs, occupancy := s.reg Pg.REC Off.REC_OCCUPANCY
      groups := gs.map (fun g => (g, s.reg Pg.REC (groupOff g 2), s.reg Pg.REC (groupOff g 3)))
      tenant := c.tenant, mode := c.mode, step := c.step }
  queueIvl 1024 (bump s Pg.REC 0x058) r

/-- INTERVAL_CLOSE: the oldest close on its way arrives in the AON island. -/
def doIntervalClose (s : State) : State :=
  match s.tat.closes with
  | [] => s
  | c :: t => closeInterval { s with tat := { s.tat with closes := t } } c

/-! ## Register rules of AON, REC and BAT (R363, R364, R374, R378 to R380, R390, R391) -/

/-- The page code of a REC write. -/
def recCheck (s : State) (off : Nat) (w : Word) : Nat :=
  if 0x400 ≤ off ∧ off < 0x600 then
    let r := (off - 0x400) / 16
    let t := setReg s Pg.REC off w
    let k := (t.recCfg r).fld 2 0
    let c1 := t.reg Pg.REC (Off.REC_REC_CFG1 r)
    let c2 := t.reg Pg.REC (Off.REC_REC_CFG2 r)
    let c3 := t.reg Pg.REC (Off.REC_REC_CFG3 r)
    let names (i : Nat) : Option Nat :=
      let f := c1.fld (6 * i + 5) (6 * i)
      if 32 ≤ f then some (f % 32) else none
    let srcs := (List.range 4).filterMap names
    if k = 7 then 0x01
    else if k = 6 ∧ (srcs.isEmpty ∨ srcs.contains r) then 0x02
    else if (k = 1 ∨ k = 2) ∧ c1.signed < c2.signed then 0x03
    else if k = 3 ∧ (c3.fld 4 0 < 1 ∨ 16 < c3.fld 4 0) then 0x03
    else if k = 5 ∧ c1.fld 15 0 < 2 then 0x03
    else 0
  else 0

/-- A write to a recogniser's registers clears its progress, history and state (R390). -/
def recWritten (s : State) (off : Nat) (v : Word) : State :=
  if off = Off.REC_OCCUPANCY then occupancyWritten s v
  else if 0x400 ≤ off ∧ off < 0x600 then setRecog s ((off - 0x400) / 16) {}
  else if 0x800 ≤ off ∧ off < 0xC00 then setRecog s ((off - 0x800) / 32) {}
  else s

/-- PAGE_CTRL EN of REC returns to 1: SEQ progress and histories are cleared (Table 3.20). -/
def recResume (s : State) : State :=
  onHub s fun h => { h with recogs := h.recogs.foldl (fun m e =>
    storePut m e.1 {} { ({} : RecogState) with state := e.2.state, lastFire := e.2.lastFire }) [] }

/-- The page code of a BAT write (R379, R380, R391). -/
def batCheck (s : State) (off : Nat) (w : Word) : Nat :=
  if off = 0x104 ∧ w.fld 31 24 = 0xFF then 0x02
  else if 0x400 ≤ off ∧ off < 0x800 then
    let m := (off - 0x400) / 16
    let t := setReg s Pg.BAT off w
    let cfg := t.strCfg m
    let quota := sumBy (fun i => t.fld Pg.BAT (Off.BAT_STR_BATCH i) 8 0) (List.range 64)
    let f := cfg.fld 2 0
    let p := cfg.fld 14 8
    if off % 16 = 0 ∧ (4 ≤ f ∨ (f = 1 ∧ (p < 2 ∨ 64 < p)) ∨ (f = 3 ∧ (p < 1 ∨ 15 < p)) ∨
        ((f = 0 ∨ f = 2) ∧ p ≠ 0)) then 0x03
    else if 256 < quota ∨ (cfg.bit 24 ∧ t.fld Pg.BAT (Off.BAT_STR_BATCH m) 8 0 = 0) then 0x01
    else 0
  else 0

/-- A write of a stream's registers closes its open batch with CFG_CHANGED; STRm_CFG also clears filter and decimator. -/
def batWritten (s : State) (off : Nat) : State :=
  if 0x400 ≤ off ∧ off < 0x800 ∧ off % 16 < 12 then
    let m := (off - 0x400) / 16
    let s := closeBatch s m true
    let s := if off % 16 = 0 then
        onHub s fun h => { h with streams := storePut h.streams m {} { value := (storeLook h.streams m {}).value } }
      else s
    hwmUpdate s m
  else if off = Off.BAT_BAT_CFG then overList hwmUpdate (List.range 64) s
  else s

/-- BLOCKS, STRm_HELD, REC_STATE, SILL_STAT. -/
def batBlocks (s : State) : Word :=
  let used := sumBy (fun e => heldBlocks e.2) s.hub.batches
  let quota := sumBy (fun i => s.fld Pg.BAT (Off.BAT_STR_BATCH i) 8 0) (List.range 64)
  Word.place 8 0 (256 - used) ||| Word.place 24 16 quota
def strHeld (s : State) (m : Nat) : Word :=
  let b := s.batchesOf m
  Word.place 8 0 (heldBlocks b) ||| Word.place 16 16 (if b.open?.isSome then 1 else 0)
def recStates (s : State) : Word :=
  (List.range 32).foldl (fun w r => if (s.recog r).state then w ||| BitVec.ofNat 32 (2 ^ r) else w) 0
def sillStat (s : State) : Word := Word.place 12 0 s.hub.sillage.length ||| Word.place 31 16 s.hub.sillSeq

/-! ## The commands -/

def execAlarm (alarm : Nat) (s : State) : Host.Outcome State Fault Refusal := done (doAlarm alarm s)
def execHostWakePulseEnd (s : State) : Host.Outcome State Fault Refusal := done (doHostWakePulseEnd s)
def execBatchClose (stream : Nat) (s : State) : Host.Outcome State Fault Refusal := done (doBatchClose stream s)
def execSeqTimeout (rec : Nat) (s : State) : Host.Outcome State Fault Refusal := done (doSeqTimeout rec s)
def execIntervalClose (s : State) : Host.Outcome State Fault Refusal := done (doIntervalClose s)
/-- WAKE_IN is asserted (R383). -/
def execWakeIn (s : State) : Host.Outcome State Fault Refusal := done (latchWake s 8)

end Sys2Proof.Machine
end

