-- ==== Sys2Proof/Machine/Bus.lean ====
section
/-! DEFINITION. Machine/Bus.lean: the poll sequencer (R365 to R370) and the sensor buses it polls (chapter 14): I2C with
alerts, stuck buses and their cure, UARTs, the ADC and its sequences, and GPIO. -/

namespace Sys2Proof.Machine

/-! ## The small tables of the buses -/

def onBus (s : State) (f : BusState → BusState) : State := { s with bus := f s.bus }

def State.i2c (s : State) (b : Nat) : I2cState := storeLook s.bus.i2c b {}
def onI2c (s : State) (b : Nat) (f : I2cState → I2cState) : State :=
  onBus s fun x => { x with i2c := storePut x.i2c b {} (f (s.i2c b)) }
def State.uart (s : State) (u : Nat) : UartState := storeLook s.bus.uart u {}
def onUart (s : State) (u : Nat) (f : UartState → UartState) : State :=
  onBus s fun x => { x with uart := storePut x.uart u {} (f (s.uart u)) }
/-- Sensor rail `r`, 0 or 1. -/
def State.rail (s : State) (r : Nat) : RailState := storeLook s.bus.rails r {}
def onRail (s : State) (r : Nat) (f : RailState → RailState) : State :=
  onBus s fun x => { x with rails := storePut x.rails r {} (f (s.rail r)) }

/-- RAIL of an I2C page and of a UART page: 0 none, else rail + 1. -/
def i2cRail (s : State) (b : Nat) : Nat := s.fld (Pg.I2C b) Off.I2C_I2C_CFG 7 6
def uartRail (s : State) (u : Nat) : Nat := s.fld (Pg.UART u) Off.UART_UART_CFG 13 12
/-- The rail named (0 none, else rail + 1) is down. -/
def railDown (s : State) (n : Nat) : Bool := n ≠ 0 && (s.rail (n - 1)).down
/-- LH-96 may use an I2C bus; a UART. -/
def i2cUsable (s : State) (b : Nat) : Bool := s.en (Pg.I2C b) && !(s.i2c b).stuck && !railDown s (i2cRail s b)
def uartUsable (s : State) (u : Nat) : Bool := s.en (Pg.UART u) && !railDown s (uartRail s u)

/-- A UART's receiver is switched off: it leaves its character, and hunts anew once it is on again (R404). -/
def uartDeaf (s : State) (u : Nat) : State := onUart s u fun x => { x with inChar := false, needHigh := false }

/-! ## Steps (Tables 13.2, 13.3) -/

def stepKind (r : PsqRun) : Nat := r.w0.fld 3 0
def stepUnit (r : PsqRun) : Nat := r.w0.fld 7 4
/-- LEN of a step: 1 to 16 bytes. -/
def stepLen (r : PsqRun) : Nat := r.w0.fld 19 16 + 1
def isI2cStep (r : PsqRun) : Bool := 1 ≤ stepKind r && stepKind r ≤ 3
def isUartStep (r : PsqRun) : Bool := 4 ≤ stepKind r && stepKind r ≤ 6

def State.taskA (s : State) (t : Nat) : Word := s.reg Pg.PSQ (Off.PSQ_TASK_A t)
/-- RAIL of a task. -/
def taskRail (s : State) (t : Nat) : Nat := (s.taskA t).fld 10 9
/-- Byte `b` of the data area: byte b mod 4 = 0 in [31:24]. -/
def psqData (s : State) (b : Nat) : Byte := (s.reg Pg.PSQ (0x400 + b % 512 / 4 * 4)).extractLsb' (24 - 8 * (b % 4)) 8
/-- `n` bytes of the data area from `off`. -/
def psqBytes (s : State) (off n : Nat) : List Byte := (List.range n).map fun i => psqData s (off + i)

/-- EXTRACT on a read buffer (R368): `none` where the field passes beyond the bytes read. -/
def extractField (buf : List Byte) (w1 : Word) : Option Word :=
  let first := w1.fld 27 24
  let n := w1.fld 29 28 + 1
  if buf.length < first + n then none
  else
    let bs := (buf.drop first).take n
    let v := beNat (if w1.bit 31 then bs.reverse else bs)
    some (if w1.bit 30 && decide (2 ^ (8 * n - 1) ≤ v) then BitVec.ofInt 32 ((v : Int) - 2 ^ (8 * n)) else BitVec.ofNat 32 v)

/-- What an I2C step puts on the bus (Table 14.2); a register read is split at WRAP_AT (R396). -/
def i2cOps (s : State) (r : PsqRun) : List BusOp :=
  let a := r.w0.fld 14 8
  let n := stepLen r
  match stepKind r with
  | 1 => [.start, .addr a false] ++ (psqBytes s (r.w1.fld 8 0) n).map .write ++ [.stop]
  | 2 => [.start, .addr a true, .read n, .stop]
  | _ =>
    let reg := r.w1.fld 7 0
    let wrap := r.w1.fld 15 8
    let point (p : Nat) : List BusOp := [.start, .addr a false, .write (BitVec.ofNat 8 p), .start, .addr a true]
    if wrap ≠ 0 ∧ reg < wrap ∧ wrap < reg + n then
      point reg ++ [.read (wrap - reg)] ++ point wrap ++ [.read (n - (wrap - reg)), .stop]
    else point reg ++ [.read n, .stop]

/-- The bus after the target has acknowledged `k` address and data bytes and not the next: that byte, then STOP (R395). -/
def upToNak : Nat → List BusOp → List BusOp
  | _, [] => [.stop]
  | k, .addr a d :: l => if k = 0 then [.addr a d, .stop] else .addr a d :: upToNak (k - 1) l
  | k, .write b :: l => if k = 0 then [.write b, .stop] else .write b :: upToNak (k - 1) l
  | k, op :: l => op :: upToNak k l

/-! ## UART data (R403, R407, R408) -/

/-- A character as a UART sends it: start bit, 7 or 8 data bits least significant first, parity, 1 or 2 stop bits (R403). -/
def uartBits (cfg : Word) (d : Byte) : List Bool :=
  let data := (List.range (if cfg.bit 0 then 8 else 7)).map d.getLsbD
  let odd := (data.filter id).length % 2 = 1
  let parity := match cfg.fld 2 1 with
    | 0 => []
    | 1 => [decide odd]
    | _ => [!decide odd]
  [false] ++ data ++ parity ++ [true] ++ if cfg.bit 3 then [true] else []

def uartFraming (s : State) (u : Nat) : Nat := s.fld (Pg.UART u) Off.UART_UART_CFG 6 5
/-- Bytes that the 256-byte FIFO holds. -/
def fifoLevel (x : UartState) : Nat := x.fifo.length + sumBy List.length x.frames + x.partFrame.length
/-- Empty the FIFO, with the frames in it and the frame in progress. -/
def emptyFifo (s : State) (u : Nat) : State :=
  onUart s u fun x => { x with fifo := [], frames := [], partFrame := [], inFrame := false, need := none }

/-- The data that a UART step of `len` bytes takes, when it is there: its bytes, and the machine without them. -/
def takeUart (s : State) (u len : Nat) : Option (List Byte × State) :=
  let x := s.uart u
  if uartFraming s u = 0 then
    if len ≤ x.fifo.length then some (x.fifo.take len, onUart s u fun x => { x with fifo := x.fifo.drop len }) else none
  else
    match x.frames with
    | f :: t => some (f, onUart s u fun x => { x with frames := t })
    | [] => none

/-! ## The sequencer (R365, R366, R369) -/

/-- An init run of rail `n` is due or running. -/
def initWaits (s : State) (n : Nat) : Bool :=
  (s.hub.due.any fun d => d.batch ≠ 0 && taskRail s d.task = n) ||
    match s.hub.run with
    | some r => r.batch ≠ 0 && taskRail s r.task = n
    | none => false

/-- A due run may start: not on a rail that is down, and a periodic one not before its rail's init tasks (R366, R401). -/
def mayStart (s : State) (d : DueRun) : Bool :=
  let n := taskRail s d.task
  !railDown s n && (d.rank ≠ 2 || n = 0 || !initWaits s n)

/-- Run `a` is taken before run `b`: handlers, init runs in their order, then periodic runs by due tick and task. -/
def dueBefore (a b : DueRun) : Bool :=
  if a.rank ≠ b.rank then decide (a.rank < b.rank)
  else a.rank = 2 && (decide (a.tick < b.tick) || (a.tick = b.tick && decide (a.task < b.task)))

/-- The step `n` of a run becomes the present one: its words are taken, and what it does from its start on a bus. -/
def beginStep (s : State) (r : PsqRun) (n : Nat) : State :=
  let r := { r with step := n, w0 := s.reg Pg.PSQ (Off.PSQ_STEP_W0 n), w1 := s.reg Pg.PSQ (Off.PSQ_STEP_W1 n)
                    wait := .none, tries := 0 }
  let s := onHub s fun h => { h with run := some r }
  let u := stepUnit r
  if isI2cStep r && i2cUsable s u then onI2c s u fun x => { x with xfer := true }
  else if stepKind r = 4 && uartUsable s u then
    let s := if s.bit (Pg.UART u) Off.UART_UART_CFG 7 then emptyFifo s u else s
    let cfg := s.reg (Pg.UART u) Off.UART_UART_CFG
    onUart s u fun x =>
      { x with txBusy := true, de := cfg.bit 8, sent := (psqBytes s (r.w1.fld 8 0) (stepLen r)).map (uartBits cfg) }
  else s

/-- With no task running, the next due run starts (R365). -/
def psqNext (s : State) : State :=
  if s.hub.run.isSome || !s.en Pg.PSQ then s
  else
    match (s.hub.due.filter (mayStart s)).foldl (fun b d => match b with
        | none => some d
        | some c => if dueBefore d c then some d else b) (none : Option DueRun) with
    | none => s
    | some d =>
      let s := bump (onHub s fun h => { h with due := h.due.erase d }) Pg.PSQ 0x040
      beginStep s { task := d.task, step := 0, w0 := 0, w1 := 0, handlerOf := d.handlerOf, batch := d.batch }
        ((s.taskA d.task).fld 6 0)

/-- The run has ended: an alert handler's bus goes on, a finished batch of init runs is reported, the next run starts. -/
def endPsqRun (s : State) (r : PsqRun) : State :=
  let s := onHub s fun h => { h with run := none }
  let s := match r.handlerOf with
    | some b => onI2c s b fun x => { x with handling := false }
    | none => s
  let s := if r.batch ≠ 0 && !(s.hub.due.any fun d => d.batch = r.batch) then setFlag s Pg.PSQ 3 else s
  psqNext s

/-- What a step holds on its bus is let go at its end. -/
def releaseBus (s : State) (r : PsqRun) : State :=
  let u := stepUnit r
  if isI2cStep r then
    if (s.i2c u).xfer then onI2c s u fun x => { x with xfer := false } else s
  else if stepKind r = 4 then
    if (s.uart u).txBusy then onUart s u fun x => { x with txBusy := false, de := false } else s
  else s

/-- A step fails: the run ends, with its record (R369). -/
def failStep (s : State) (r : PsqRun) (code : Nat) : State :=
  let s := releaseBus s r
  let s := setReg s Pg.PSQ Off.PSQ_LAST_FAIL (Word.place 6 0 r.step ||| Word.place 11 8 r.task ||| Word.place 19 16 code)
  let s := setFlag (bump s Pg.PSQ 0x050) Pg.PSQ 0
  let s := if code = 6 then setFlag s Pg.PSQ 2 else s
  let s := sillAdd s 9 [BitVec.ofNat 8 r.task, BitVec.ofNat 8 r.step, BitVec.ofNat 8 code]
  endPsqRun s r

/-- A step that began fails; it counts as executed. -/
def failNow (s : State) (r : PsqRun) (code : Nat) : State := failStep (bump s Pg.PSQ 0x048) r code

/-- A step succeeds with the result that RESULT holds: its sample, then the end of the run or the step at `target`, or
else the next one. -/
def endStep (s : State) (r : PsqRun) (target : Option Nat) : State :=
  let s := releaseBus (bump s Pg.PSQ 0x048) r
  let s := if r.w0.bit 21 then sample s (r.w0.fld 27 22) (s.reg Pg.PSQ Off.PSQ_RESULT) else s
  let r := { r with count := r.count + 1 }
  if 256 ≤ r.count then failStep s r 6
  else if r.ending then endPsqRun s r
  else
    match target with
    | some n => beginStep s r n
    | none => if r.w0.bit 31 then endPsqRun s r else beginStep s r ((r.step + 1) % 128)

/-- A step succeeds with a result. -/
def endResult (s : State) (r : PsqRun) (v : Word) : State := endStep (setReg s Pg.PSQ Off.PSQ_RESULT v) r none

/-- A reading step succeeds or fails by its EXTRACT (R368). -/
def endExtract (s : State) (r : PsqRun) : State :=
  match extractField s.hub.readBuf r.w1 with
  | some v => endResult s r v
  | none => failNow s r 8

/-- The running task's present step has the kind `k` and waits for nothing. -/
def atStep (s : State) (k : Nat) : Option PsqRun :=
  match s.hub.run with
  | some r => if stepKind r = k ∧ r.wait = .none then some r else none
  | none => none

/-- The machine with the running step waiting. -/
def waitStep (s : State) (r : PsqRun) (w : StepWait) : State := onHub s fun h => { h with run := some { r with wait := w } }

/-- The present tick is one in which the periodic task falls due, and it has not yet: 50,000 × (PHASE_MS + k × PERIOD_MS) ticks
after time zero (R365). -/
def taskDue (s : State) (t : Nat) : Bool :=
  let a := s.taskA t
  let from_ := s.hub.psqZero + 50000 * s.fld Pg.PSQ (Off.PSQ_TASK_B t) 15 0
  decide (t < 16) && a.bit 8 && !a.bit 11 && s.en Pg.PSQ && decide (from_ ≤ s.hub.tick) &&
    decide ((s.hub.tick - from_) % (50000 * a.fld 31 16) = 0) && decide (storeFind s.hub.taskLast t ≠ some s.hub.tick)

/-- TASK_DUE: a periodic task falls due (R365, R401). In another tick the event does not occur (log 137). -/
def doTaskDue (t : Nat) (s0 : State) : State :=
  let s := onHub s0 fun h => { h with taskLast := storeInsert h.taskLast t h.tick }
  if !taskDue s0 t then s0
  else if railDown s (taskRail s t) then bump s Pg.GPIO 0x058
  else if s.hub.due.any (fun d => d.task = t) || (s.hub.run.any fun r => r.task = t) then
    setFlag (bump s Pg.PSQ 0x058) Pg.PSQ 1
  else psqNext (onHub s fun h => { h with due := h.due ++ [{ task := t, tick := h.tick, rank := 2 }] })

/-- Queue a batch of init tasks: every valid one, or those of a rail (R366). -/
def queueInit (s : State) (rail : Option Nat) : State :=
  let ts := (List.range 16).filter fun t =>
    (s.taskA t).bit 8 && (s.taskA t).bit 11 && (match rail with
      | none => true
      | some n => taskRail s t = n)
  if ts.isEmpty then psqNext s
  else
    let b := s.hub.nextBatch
    psqNext (onHub s fun h =>
      { h with nextBatch := b + 1
               due := h.due ++ ts.map (fun t => { task := t, tick := h.tick, rank := 1, batch := b }) })

/-- The periodic tasks that fall due in the present tick, in ascending number (R365, Table 13.16). -/
def tasksDue (s : State) : State := overList (fun s t => doTaskDue t s) (List.range 16) s

/-- PAGE_CTRL EN of PSQ becomes 1: time zero, the init tasks, and the tasks with PHASE_MS 0 (R365, R366). -/
def psqOn (s : State) : State :=
  tasksDue (queueInit (onHub s fun h => { h with psqZero := h.tick, taskLast := [] }) none)

/-- PAGE_CTRL EN of PSQ is cleared: due runs are discarded, and the running task ends after its present step (R365). -/
def psqOff (s : State) : State :=
  let s := s.hub.due.foldl (fun s d => match d.handlerOf with
    | some b => onI2c s b fun x => { x with handling := false }
    | none => s) s
  onHub s fun h => { h with due := [], run := h.run.map fun r => { r with ending := true } }

/-- The page code of a PSQ write (R367, R389). -/
def psqCheck (s : State) (off : Nat) (w : Word) : Nat :=
  if 0x200 ≤ off ∧ off < 0x280 then
    let t := setReg s Pg.PSQ off w
    let n := (off - 0x200) / 8
    let a := t.taskA n
    if !a.bit 11 ∧ (a.fld 31 16 = 0 ∨ a.fld 31 16 ≤ t.fld Pg.PSQ (Off.PSQ_TASK_B n) 15 0) then 0x02 else 0
  else if 0x800 ≤ off ∧ off % 8 = 0 then
    let k := w.fld 3 0
    let u := w.fld 7 4
    if 12 ≤ k ∨ (1 ≤ k ∧ k ≤ 3 ∧ 2 ≤ u) ∨ (4 ≤ k ∧ k ≤ 6 ∧ 4 ≤ u) ∨ (k = 7 ∧ 8 ≤ u) then 0x01 else 0
  else 0

/-- PSQ_STAT. -/
def psqStat (s : State) : Word :=
  match s.hub.run with
  | some r => Word.place 6 0 r.step ||| Word.place 11 8 r.task ||| Word.place 12 12 1
  | none => 0

/-- The page soft reset abandons runs and the read buffer (R78). -/
def psqSoftReset (s : State) : State :=
  let s := match s.hub.run with
    | some r => releaseBus s r
    | none => s
  let s := [0, 1].foldl (fun s b => if (s.i2c b).handling then onI2c s b fun x => { x with handling := false } else s) s
  onHub s fun h => { h with due := [], run := none, readBuf := [], psqZero := h.tick, taskLast := [] }

/-! ## Steps without a bus (R367, R368) -/

/-- NOP, WAIT: the result is unchanged. -/
def doPlainStep (k : Nat) (s : State) : State :=
  match atStep s k with
  | some r => endStep s r none
  | none => s

/-- GPI_RD: the debounced inputs under the mask. -/
def doGpiRd (s : State) : State :=
  match atStep s 8 with
  | some r => endResult s r (s.bus.gpiIn &&& r.w1)
  | none => s

/-- FIELD: a field of the last read buffer. -/
def doField (s : State) : State :=
  match atStep s 11 with
  | some r => endExtract s r
  | none => s

/-- The condition of a BRANCH (Table 13.3); `free` decides the reserved one. -/
def branchTaken (cond : Nat) (v imm : Word) (free : Bool) : Bool :=
  if cond = 0 then v = imm
  else if cond = 1 then v ≠ imm
  else if cond = 2 then v.signed < imm.signed
  else if cond = 3 then imm.signed ≤ v.signed
  else if cond = 4 then v &&& imm ≠ 0
  else if cond = 5 then v &&& imm = 0
  else if cond = 6 then true
  else free

/-- BRANCH. COND 7 is reserved: whether it branches is not stated, and is free. -/
def doBranch (s : State) : State :=
  match atStep s 10 with
  | some r =>
    let imm : Word := BitVec.signExtend 32 (BitVec.ofNat 16 (r.w1.fld 15 0))
    let cond := r.w1.fld 18 16
    let v := s.reg Pg.PSQ Off.PSQ_RESULT
    let (n, s) := if cond = 7 then drawFree s else (0, s)
    if branchTaken cond v imm (Word.bit (Config.freeWord n) 0) then endStep s r (some (r.w1.fld 26 20)) else endStep s r none
  | none => s

/-! ## I2C (R392 to R398) -/

/-- An I2C step of kind `k` ends on the bus with `out`. -/
def doI2c (k : Nat) (out : I2cOutcome) (s : State) : State :=
  match atStep s k with
  | none => s
  | some r =>
    let b := stepUnit r
    let p := Pg.I2C b
    if !s.en p then failNow s r 7
    else if !i2cUsable s b then failNow s r 4
    else
      let ops := i2cOps s r
      let idle (s : State) (ops : List BusOp) : State :=
        onI2c s b fun x => { x with scl := true, sda := true, busBusy := false, wire := ops }
      match out with
      | .ok bytes =>
        let s := idle (bumpBy (bump s p 0x040) p 0x048 (stepLen r)) ops
        if k = 1 then endResult s r 0
        else endExtract (onHub s fun h => { h with readBuf := bytes.take (stepLen r) }) r
      | .nak acked =>
        let s := idle (setFlag (bump (bump s p 0x040) p 0x050) p 7) (upToNak acked ops)
        failNow s r 1
      | .arbLost =>
        let s := setFlag (bump s p 0x058) p 0
        let s := onI2c s b fun x => { x with busBusy := true }
        if 3 ≤ r.tries then failNow s r 2 else waitStep s { r with tries := r.tries + 1 } .arb
      | .stretch =>
        let s := setFlag (bump (bump s p 0x040) p 0x060) p 1
        failNow s r 3

/-- ARB_RETRY: the bus is free and the back-off has passed (R397). -/
def doArbRetry (s : State) : State :=
  match s.hub.run with
  | some r =>
    if r.wait = .arb then
      waitStep (onI2c s (stepUnit r) fun x => { x with busBusy := false }) r .none
    else s
  | none => s

/-- Mode minima of LOW_T and HIGH_T (Table 14.1). -/
def i2cMinima (mode : Nat) : Nat × Nat := if mode = 0 then (235, 200) else if mode = 1 then (65, 30) else (25, 13)

/-- The page code of an I2C write (R393). -/
def i2cCheck (s : State) (page off : Nat) (w : Word) : Nat :=
  if 0x100 ≤ off ∧ off ≤ 0x108 then
    let t := setReg s page off w
    let (lo, hi) := i2cMinima (t.fld page Off.I2C_I2C_CFG 1 0)
    let lowT := t.fld page Off.I2C_I2C_TIM 8 0
    if t.bit page Off.I2C_I2C_CFG 2 ∧ (lowT < lo ∨ t.fld page Off.I2C_I2C_TIM 24 16 < hi ∨
        lowT ≤ t.fld page Off.I2C_I2C_TIM2 5 0) then 0x01
    else 0
  else 0

/-! ## SMBus alert (R399, R370) -/

/-- ALERT: the alert input has been low for 1 µs. -/
def doAlert (b : Nat) (s : State) : State := onI2c s b fun x => { x with alertLine := true }

/-- The task that ALERT_MAP names for an address on a bus. -/
def alertTask (s : State) (b address : Nat) : Option Nat :=
  ((List.range 8).map fun k => s.reg Pg.PSQ (Off.PSQ_ALERT_MAP k)).find? (fun w =>
    w.bit 15 && w.fld 6 0 = address && w.fld 7 7 = b) |>.map fun w => w.fld 11 8

/-- An alert read may run now (R399 step 1). -/
def alertReadable (s : State) (b : Nat) : Bool :=
  let x := s.i2c b
  s.bit (Pg.I2C b) Off.I2C_I2C_CFG 4 && i2cUsable s b && x.alertLine && !x.alertWait && !x.handling &&
    !(s.hub.run.any fun r => isI2cStep r && stepUnit r = b)

/-- ALERT_READ: the read of the Alert Response Address 0x0C ends with a byte; with no target acknowledging it; with arbitration
lost, to be read again (R397); or with a stretch violation. -/
def doAlertRead (b : Nat) (answer : I2cOutcome) (still : Bool) (s : State) : State :=
  if !alertReadable s b then s
  else
    let p := Pg.I2C b
    let s := onI2c s b fun x => { x with wire := [.start, .addr 0x0C true, .read 1, .stop] }
    match answer with
    | .nak _ =>
      onI2c (bump s p 0x040) b fun x =>
        { x with alertWait := true, alertLine := still, wire := [.start, .addr 0x0C true, .stop] }
    | .arbLost => onI2c (setFlag (bump s p 0x058) p 0) b fun x => { x with alertLine := still }
    | .stretch => onI2c (setFlag (bump (bump s p 0x040) p 0x060) p 1) b fun x => { x with alertLine := still }
    | .ok bytes =>
      let a := (bytes.headD 0xFF).toNat / 2
      let now := s.hub.tick
      let times := now :: (s.i2c b).araTicks.filter fun t => decide (now ≤ t + 5000000)
      let s := onI2c (bump (bump s p 0x040) p 0x048) b fun x =>
        { x with lastAra := a, alertLine := still, araTicks := times.take 16 }
      let s := setFlag (bump s p 0x070) p 3
      let s := match alertTask s b a with
        | some t =>
          if s.en Pg.PSQ then
            let s := onI2c s b fun x => { x with handling := true }
            psqNext (onHub s fun h =>
              { h with due := h.due ++ [{ task := t, tick := h.tick + 1, rank := 0, handlerOf := some b }] })
          else s
        | none => bump s Pg.PSQ 0x060
      if 16 ≤ times.length then
        setFlag (setBitOf (onI2c s b fun x => { x with araTicks := [] }) p Off.I2C_I2C_CFG 4 false) p 4
      else s

/-- ALERT_RETRY: the 10 ms after an unacknowledged alert read have passed. -/
def doAlertRetry (b : Nat) (s : State) : State := onI2c s b fun x => { x with alertWait := false }

/-! ## Stuck buses and the cure (R400, R401, R415) -/

/-- The running step is on a bus or UART that the predicate names, and it is under way: it fails with `code`. -/
def failOn (s : State) (code : Nat) (which : PsqRun → Bool) : State :=
  match s.hub.run with
  | some r => if which r then failNow s r code else s
  | none => s

/-- The stuck buses of rail `r`. -/
def stuckOn (s : State) (r : Nat) : List Nat := [0, 1].filter fun b => (s.i2c b).stuck && i2cRail s b = r + 1

/-- A cure starts on a rail (R401 step 1): the rail goes off, and steps on its buses fail. -/
def startCure (s : State) (r : Nat) : State :=
  let s := onRail s r fun x => { x with curing := true, settling := false, down := true, cures := x.cures + 1 }
  let s := setBitOf (setBitOf s Pg.GPIO Off.GPIO_RAIL_CTRL (4 * r) false) Pg.GPIO Off.GPIO_RAIL_CTRL (4 * r + 1) true
  let s := bump s Pg.GPIO (0x048 + 8 * r)
  let s := (stuckOn s r).foldl (fun s b =>
    onI2c (bump s (Pg.I2C b) 0x078) b fun x => { x with cureCount := x.cureCount + 1 }) s
  let s := ((List.range 4).filter fun u => uartRail s u = r + 1).foldl uartDeaf s
  failOn s 4 fun x => (isI2cStep x && i2cRail s (stepUnit x) = r + 1) || (isUartStep x && uartRail s (stepUnit x) = r + 1)

/-- The cure of a rail is over. -/
def endCure (s : State) (r : Nat) : State :=
  onRail s r fun x => { x with curing := false, settling := false, down := false, cures := 0 }

/-- BUS_STUCK: a line has been low for 25 ms while LH-96 was not driving it (R400). -/
def doBusStuck (b : Nat) (sclHigh sdaHigh : Bool) (s : State) : State :=
  let p := Pg.I2C b
  if 2 ≤ b || !s.en p || (s.i2c b).stuck || (sclHigh && sdaHigh) then s
  else
    let s := onI2c s b fun x => { x with stuck := true, scl := sclHigh, sda := sdaHigh, busBusy := true }
    let s := failOn s 4 fun r => isI2cStep r && stepUnit r = b
    let s := setFlag (bump s p 0x068) p 2
    let s := sillAdd s 3 (beBytes 2 p ++ [4])
    let n := i2cRail s b
    if s.bit p Off.I2C_I2C_CFG 5 ∧ (n = 1 ∨ n = 2) ∧ !(s.rail (n - 1)).curing then startCure s (n - 1) else s

/-- PWR_CYCLE_END: the rail comes on again (R401 step 2). -/
def doPwrCycleEnd (r : Nat) (s : State) : State :=
  if 2 ≤ r || !(s.rail r).curing || (s.rail r).settling then s
  else onRail (setBitOf s Pg.GPIO Off.GPIO_RAIL_CTRL (4 * r) true) r fun x => { x with settling := true }

/-- The cure succeeds (R401 step 3). -/
def cureDone (s : State) (r : Nat) : State :=
  let s := (stuckOn s r).foldl (fun s b =>
    setFlag (onI2c s b fun x => { x with stuck := false, cureCount := 0, busBusy := false }) (Pg.I2C b) 5) s
  queueInit (endCure s r) (some (r + 1))

/-- RAIL_SETTLE_END: RAIL_SETTLE_MS have passed; `lines` says which lines are high, SCL and SDA of I2CA, then of I2CB. -/
def doRailSettleEnd (r : Nat) (lines : BitVec 4) (s : State) : State :=
  if 2 ≤ r || !(s.rail r).curing || !(s.rail r).settling then s
  else
    let stuck := stuckOn s r
    let s := stuck.foldl (fun s b =>
      onI2c s b fun x => { x with scl := lines.getLsbD (2 * b), sda := lines.getLsbD (2 * b + 1) }) s
    if stuck.all fun b => (s.i2c b).scl && (s.i2c b).sda then cureDone s r
    else if stuck.any fun b => decide ((s.i2c b).cureCount < s.fld (Pg.I2C b) Off.I2C_I2C_CFG 27 24) then startCure s r
    else psqNext (endCure (stuck.foldl (fun s b => setFlag s (Pg.I2C b) 6) s) r)

/-- A write of I2C_CMD CLR_STUCK (R401). -/
def clearStuck (s : State) (b : Nat) : State := onI2c s b fun x => { x with stuck := false, cureCount := 0 }

/-- A write of RAIL_CTRL ends the cures: the rails take the written value (R401, R415). -/
def railWritten (s : State) : State :=
  [0, 1].foldl (fun s r => if (s.rail r).curing then psqNext (endCure s r) else s) s

/-- I2C_STAT. -/
def i2cStat (s : State) (b : Nat) : Word :=
  let x := s.i2c b
  let n := i2cRail s b
  flagBit 0 (x.busBusy || x.xfer) ||| flagBit 1 x.xfer ||| flagBit 2 x.stuck |||
    flagBit 3 (x.stuck && n ≠ 0 && (s.rail (n - 1)).curing) ||| flagBit 4 x.alertLine ||| flagBit 5 x.scl |||
    flagBit 6 x.sda ||| Word.place 14 8 x.lastAra ||| Word.place 19 16 x.cureCount

/-- EN of an I2C or UART page is cleared, or its soft reset starts: its step fails with BUS_OFF (R402, R410). -/
def busPageOff (s : State) (page : Nat) : State :=
  failOn s 7 fun r => (isI2cStep r && Pg.I2C (stepUnit r) = page) || (isUartStep r && Pg.UART (stepUnit r) = page)

/-- The soft reset of an I2C page (R402, R78). -/
def i2cSoftReset (s : State) (b : Nat) : State :=
  let s := busPageOff s (Pg.I2C b)
  onI2c s b fun x => { scl := x.scl, sda := x.sda, alertLine := x.alertLine }

/-! ## UARTs (R403 to R410) -/

/-- A UART step takes its data, when it is there. -/
def takeStep (s : State) (r : PsqRun) : Option State :=
  (takeUart s (stepUnit r) (stepLen r)).map fun (bs, s) =>
    if stepKind r = 5 then endExtract (onHub s fun h => { h with readBuf := bs.take (stepLen r) }) r
    else endResult s r (if bs.take (stepLen r) = psqBytes s (r.w1.fld 8 0) (stepLen r) then 1 else 0)

/-- UART_RX, UART_MATCH: the step takes its data, or waits for it (R407, R408). -/
def doUartTake (k : Nat) (s : State) : State :=
  match atStep s k with
  | none => s
  | some r =>
    if !s.en (Pg.UART (stepUnit r)) then failNow s r 7
    else if !uartUsable s (stepUnit r) then failNow s r 4
    else (takeStep s r).getD (waitStep s r .uart)

/-- UART_TX: the step's bytes have gone out (R409). -/
def doUartTx (s : State) : State :=
  match atStep s 4 with
  | none => s
  | some r =>
    let p := Pg.UART (stepUnit r)
    if !s.en p then failNow s r 7
    else if !uartUsable s (stepUnit r) then failNow s r 4
    else endResult (bumpBy s p 0x048 (stepLen r)) r 0

/-- UART_STEP_TIMEOUT: TMO_MS of the waiting step have passed. -/
def doUartStepTimeout (s : State) : State :=
  match s.hub.run with
  | some r => if r.wait = .uart then failNow s r 5 else s
  | none => s

/-- Data has come for a UART: a step that waits for it takes it. -/
def uartReady (s : State) (u : Nat) : State :=
  match s.hub.run with
  | some r => if r.wait = .uart ∧ stepUnit r = u then (takeStep s r).getD s else s
  | none => s

/-- The frame in progress is discarded (R408). -/
def abortFrame (s : State) (u : Nat) : State :=
  if !(s.uart u).inFrame then s
  else
    let s := onUart s u fun x => { x with partFrame := [], inFrame := false, need := none }
    setFlag (bump s (Pg.UART u) 0x070) (Pg.UART u) 4

/-- The frame in progress is complete. -/
def completeFrame (s : State) (u : Nat) : State :=
  let s := onUart s u fun x =>
    { x with frames := x.frames ++ [x.partFrame], partFrame := [], inFrame := false, need := none }
  bump s (Pg.UART u) 0x068

/-- A byte enters the FIFO, unless it is full (R407). -/
def fifoPut (s : State) (u : Nat) (f : UartState → UartState) : State :=
  if fifoLevel (s.uart u) < 256 then onUart s u f else setFlag (bump s (Pg.UART u) 0x060) (Pg.UART u) 3

/-- A byte joins the frame in progress; one that makes it longer than FRAME_MAX discards it. -/
def frameByte (s : State) (u : Nat) (d : Byte) : State :=
  let x := s.uart u
  if s.fld (Pg.UART u) Off.UART_UART_FRAME 15 8 ≤ x.partFrame.length then
    abortFrame (onUart s u fun x => { x with inFrame := true }) u
  else fifoPut s u fun x => { x with partFrame := x.partFrame ++ [d], inFrame := true }

/-- A good character, in its framing (R407, R408). -/
def storeChar (s : State) (u : Nat) (d : Byte) : State :=
  let x := s.uart u
  match uartFraming s u with
  | 0 => fifoPut s u fun x => { x with fifo := x.fifo ++ [d] }
  | 1 => if d.toNat = s.fld (Pg.UART u) Off.UART_UART_FRAME 7 0 then completeFrame s u else frameByte s u d
  | _ =>
    match x.need with
    | none =>
      let n := d.toNat - if s.bit (Pg.UART u) Off.UART_UART_FRAME 20 then 1 else 0
      if n = 0 then completeFrame s u else onUart s u fun x => { x with inFrame := true, need := some n }
    | some n =>
      let s := frameByte s u d
      if !(s.uart u).inFrame then s
      else if n ≤ 1 then completeFrame s u
      else onUart s u fun x => { x with need := some (n - 1) }

/-- The majority of three samples. -/
def majority (b : BitVec 3) : Bool := decide (2 ≤ ((List.range 3).filter b.getLsbD).length)

/-- START_BIT: the receiver judges a start bit by the majority of its samples 7 to 9 (R404). -/
def doStartBit (u : Nat) (samples : BitVec 3) (s : State) : State :=
  if decide (u < 4) && uartUsable s u && !(s.uart u).inChar then
    onUart s u fun x => { x with inChar := !majority samples, needHigh := false }
  else s

/-- The bits of a character: data, least significant first, and the parity bit where the format has one (R403, R404). -/
def charBits (cfg : Word) (c : UartChar) : List Bool :=
  (List.range ((if cfg.bit 0 then 8 else 7) + if cfg.fld 2 1 = 0 then 0 else 1)).map fun i => majority (c.samples.getD i 7)

/-- CHARACTER_RECEIVED: a character that a start bit began has reached its stop sample (R404, R406 to R408). -/
def doCharacterReceived (u : Nat) (c : UartChar) (s : State) : State :=
  if 4 ≤ u || !uartUsable s u || !(s.uart u).inChar then s
  else
    let p := Pg.UART u
    let cfg := s.reg p Off.UART_UART_CFG
    let bits := charBits cfg c
    let d : Byte := BitVec.ofNat 8 (sumBy (fun i => b2n (bits.getD i false) (2 ^ i)) (List.range (if cfg.bit 0 then 8 else 7)))
    let ones := (bits.filter id).length
    let fe := !c.stop
    let pe := cfg.fld 2 1 ≠ 0 && (decide (ones % 2 = 1) ≠ decide (cfg.fld 2 1 = 2))
    let low := fe && bits.all not
    let s := bump s p 0x040
    let s := onUart s u fun x => { x with inChar := fe && cfg.bit 4, needHigh := fe && !cfg.bit 4 }
    let s := if fe then setFlag (bump s p 0x050) p 0 else s
    let s := if fe && cfg.bit 4 then bump s p 0x080 else s
    let s := if low then setFlag (bump s p 0x078) p 2 else s
    let s := if pe then setFlag (bump s p 0x058) p 1 else s
    if fe || pe then abortFrame s u
    else if (s.uart u).de && !cfg.bit 10 then s
    else uartReady (storeChar s u d) u

/-- FRAME_IDLE: IDLE_CHARS character times have passed within a frame (R408). -/
def doFrameIdle (u : Nat) (s : State) : State := abortFrame s u

/-- The page code of a UART write (R403, R418). -/
def uartCheck (off : Nat) (w : Word) : Nat :=
  if off = Off.UART_UART_DIV ∧ w.fld 23 0 < 0x100 then 0x01
  else if off = Off.UART_UART_FRAME ∧ (w.fld 15 8 = 0 ∨ w.fld 19 16 = 0) then 0x02
  else 0

/-- A change of UART_CFG, UART_DIV or UART_FRAME empties the FIFO (R410). -/
def uartWritten (s : State) (u off : Nat) (changed : Bool) : State :=
  if changed ∧ 0x100 ≤ off ∧ off ≤ 0x108 then emptyFifo s u else s

/-- PAGE_CTRL EN of a UART page becomes 1: its outputs are driven from then on (R409). -/
def uartOn (s : State) (u : Nat) : State := onUart s u fun x => { x with driven := true }

/-- UART_STAT. -/
def uartStat (s : State) (u : Nat) : Word :=
  let x := s.uart u
  Word.place 8 0 (fifoLevel x) ||| flagBit 16 x.txBusy ||| flagBit 17 x.de ||| flagBit 18 x.inFrame |||
    Word.place 27 20 x.frames.length

/-- The soft reset of a UART page (R407, R410). -/
def uartSoftReset (s : State) (u : Nat) : State :=
  let s := busPageOff s (Pg.UART u)
  onUart s u fun x => { driven := x.driven }

/-! ## ADC (R411, R412) -/

/-- ADC: the step requests a conversion of its channel. -/
def doAdc (s : State) : State :=
  match atStep s 7 with
  | none => s
  | some r =>
    if !s.en Pg.ADC then failNow s r 7
    else waitStep (onBus s fun b => { b with adcQueue := b.adcQueue ++ [.psq (stepUnit r % 8)] }) r .adc

def seqCfg (s : State) (q : Nat) : Word := s.reg Pg.ADC (Off.ADC_SEQ_CFG q)
/-- Entry `n` of sequence `q`: its 16 bits. -/
def seqEntry (s : State) (q n : Nat) : Nat :=
  s.fld Pg.ADC (0x204 + 32 * q + 4 * (n / 2)) (16 * (n % 2) + 15) (16 * (n % 2))

/-- Sequence `q` starts, or the start is skipped while it is queued or running (R412). -/
def startSeq (s : State) (q : Nat) : State :=
  if s.bus.seqActive.contains q then setFlag (bump s Pg.ADC 0x050) Pg.ADC 4
  else
    let n := (seqCfg s q).fld 6 4 + 1
    onBus s fun b => { b with seqActive := setAdd b.seqActive q
                              adcQueue := b.adcQueue ++ (List.range n).map fun i => AdcReq.seq q i }

/-- A period of an enabled sequence with TRIG = 0 has expired (R412). -/
def seqDue (s : State) (q : Nat) : Bool :=
  let c := seqCfg s q
  decide (q < 4) && c.bit 0 && !c.bit 1 && (storeFind s.bus.seqNext q).any fun t => decide (t ≤ s.hub.tick)

/-- SEQUENCE_START: PERIOD_US of a periodic sequence expires; it starts unless the page is disabled (R412, Table 3.20). Before that
the event does not occur (log 137). -/
def doSequenceStart (q : Nat) (s : State) : State :=
  if !seqDue s q then s
  else
    let s := onBus s fun b => { b with seqNext := storeModify b.seqNext q 0 (· + (seqCfg s q).fld 31 12 * 50) }
    if s.en Pg.ADC then startSeq s q else s

/-- A write of SEQs_CFG: its periods count from the tick in which EN is set, or PERIOD_US or TRIG changed (R412). -/
def adcWritten (s : State) (off : Nat) (old v : Word) : State :=
  let q := (off - 0x200) / 32
  if 0x200 ≤ off ∧ off < 0x280 ∧ off % 32 = 0 ∧ v.bit 0 ∧ (!old.bit 0 ∨ old.bit 1 ≠ v.bit 1 ∨ old.fld 31 12 ≠ v.fld 31 12) then
    onBus s fun b => { b with seqNext := storeInsert b.seqNext q (s.hub.tick + v.fld 31 12 * 50) }
  else s

/-- RESULTc takes a code and the tick of its end. -/
def adcResult (s : State) (ch code : Nat) : State :=
  bump (setReg s Pg.ADC (Off.ADC_RESULT ch) (Word.place 11 0 code ||| Word.place 31 16 s.hub.tick)) Pg.ADC 0x040

/-- CONVERSION: the conversion in progress ends with a code (R411, R412). -/
def doConversion (code : Nat) (s : State) : State :=
  match s.bus.adcQueue with
  | [] => s
  | q :: t =>
    let s := onBus s fun b => { b with adcQueue := t }
    let v := min 4095 code
    match q with
    | .psq ch =>
      let s := adcResult s ch v
      match s.hub.run with
      | some r => if r.wait = .adc then endResult s r (BitVec.ofNat 32 v) else s
      | none => s
    | .seq i n =>
      let e := seqEntry s i n
      let s := adcResult s (e % 8) v
      let s := if e / 32768 = 1 then sample s (e / 256 % 64) (BitVec.ofNat 32 v) else s
      if t.any (fun x => match x with
          | .seq j _ => j = i
          | .psq _ => false) then s
      else setFlag (bump (onBus s fun b => { b with seqActive := setDel b.seqActive i }) Pg.ADC 0x048) Pg.ADC i

/-- The page code of an ADC write (R412). -/
def adcCheck (off : Nat) (w : Word) : Nat :=
  if 0x200 ≤ off ∧ off % 32 = 0 ∧ off < 0x280 ∧ w.bit 0 ∧ !w.bit 1 ∧ w.fld 31 12 < w.fld 6 4 + 1 then 0x01 else 0

/-- The soft reset of the ADC page: queued conversions and sequences are dropped; a waiting step fails with BUS_OFF. -/
def adcSoftReset (s : State) : State :=
  let s := onBus s fun b => { b with adcQueue := [], seqActive := [], seqNext := [] }
  failOn s 7 fun r => stepKind r = 7

/-! ## GPIO (R413, R414) -/

/-- DEBOUNCED_EDGE: debounced levels change in one tick: each input with its new level. -/
def doDebouncedEdge (edges : List (Nat × Bool)) (s : State) : State :=
  let real := ((List.range 32).filterMap fun n =>
    match edges.find? fun e => e.1 = n with
    | some e => if s.bus.gpiIn.bit n ≠ e.2 then some e else none
    | none => none)
  let s := onBus s fun b => real.foldl (fun b e =>
    { b with gpiIn := b.gpiIn.setBit e.1 e.2, gpiRaw := b.gpiRaw.setBit e.1 e.2 }) b
  let sel := real.filter fun e => s.bit Pg.GPIO (if e.2 then Off.GPIO_EDGE_RISE else Off.GPIO_EDGE_FALL) e.1
  let s := bumpBy s Pg.GPIO 0x040 sel.length
  let s := if sel.isEmpty then s
    else pulse (setFlags s Pg.GPIO (sel.foldl (fun w e => w ||| flagBit e.1 true) 0)) (sel.map Prod.fst)
  if real.isEmpty then s else recInput s (real.map fun e => { input := e.1, rising := e.2 }) []

/-- An event at the GPOk consumer starts or restarts its pulse (R414, Table 16.2). -/
def gpoPulse (s : State) (k : Nat) : State := onBus s fun b => { b with gpoPulse := setAdd b.gpoPulse k }
/-- GPO_PULSE_END: PULSE_US have passed. -/
def doGpoPulseEnd (k : Nat) (s : State) : State := onBus s fun b => { b with gpoPulse := setDel b.gpoPulse k }

/-- The level that output `k` drives; `none` is high impedance (R414). -/
def gpoPin (s : State) (k : Nat) : Option Bool :=
  let c := s.reg Pg.GPIO (Off.GPIO_GPO_SRC k)
  let v := match c.fld 1 0 with
    | 0 => s.bit Pg.GPIO Off.GPIO_GPO_OUT k
    | 1 => (s.recog (c.fld 12 8)).state
    | _ => s.bus.gpoPulse.contains k
  if !s.bit Pg.GPIO Off.GPIO_GPO_OE k || (v && s.bit Pg.GPIO Off.GPIO_GPO_OD k) then none else some v

/-- SENS_PWR_ENr (R415). -/
def railPin (s : State) (r : Nat) : Option Bool :=
  if s.bit Pg.GPIO Off.GPIO_RAIL_CTRL (4 * r + 1) then some (s.bit Pg.GPIO Off.GPIO_RAIL_CTRL (4 * r)) else none

/-- Un_DE (R409): driven while the page is enabled, has been since reset, and its rail is up. -/
def dePin (s : State) (u : Nat) : Option Bool :=
  if (s.uart u).driven && uartUsable s u then
    some ((s.uart u).de ≠ s.bit (Pg.UART u) Off.UART_UART_CFG 9)
  else none

/-- A write of GPI_INV: the latest samples turn with it; the debounced levels follow by edges (R413). -/
def gpioWritten (s : State) (off : Nat) (old : Word) : State :=
  if off = Off.GPIO_GPI_INV then onBus s fun b => { b with gpiRaw := b.gpiRaw ^^^ old ^^^ s.reg Pg.GPIO off } else s

/-- Bits of PULL_ENw and PULL_UPw that stand for no pin with a pull (R416). -/
def pullMask (w : Nat) : Word := if w = 0 then 0xFFFFFFFF else if w = 1 then 0xFFFF00FF else 0x00001FFF

/-- RAIL_STAT. -/
def railStat (s : State) : Word :=
  flagBit 0 (s.rail 0).curing ||| flagBit 1 (s.rail 1).curing ||| flagBit 4 (s.rail 0).down ||| flagBit 5 (s.rail 1).down

/-- The soft reset of the GPIO page ends cures and pulses; input levels stand. -/
def gpioSoftReset (s : State) : State := onBus s fun b => { b with rails := [], gpoPulse := [] }

/-! ## What a tick brings (log 137) -/

/-- The events whose AON tick the state holds: what the acquisition engine times, alarms, the poll tasks and the ADC sequences
that fall due in it (R363, R365, R412, R427 to R430). -/
def islandTick (s : State) : State :=
  let s := engineTick s
  let s := overList (fun s a => doAlarm a s) (List.range 4) s
  overList (fun s q => doSequenceStart q s) (List.range 4) (tasksDue s)

/-! ## The commands -/

def execTaskDue (task : Nat) (s : State) : Host.Outcome State Fault Refusal := done (doTaskDue task s)
def execNop (s : State) : Host.Outcome State Fault Refusal := done (doPlainStep 0 s)
def execI2cWr (outcome : I2cOutcome) (s : State) : Host.Outcome State Fault Refusal := done (doI2c 1 outcome s)
def execI2cRd (outcome : I2cOutcome) (s : State) : Host.Outcome State Fault Refusal := done (doI2c 2 outcome s)
def execI2cRegrd (outcome : I2cOutcome) (s : State) : Host.Outcome State Fault Refusal := done (doI2c 3 outcome s)
def execUartTx (s : State) : Host.Outcome State Fault Refusal := done (doUartTx s)
def execUartRx (s : State) : Host.Outcome State Fault Refusal := done (doUartTake 5 s)
def execUartMatch (s : State) : Host.Outcome State Fault Refusal := done (doUartTake 6 s)
def execAdc (s : State) : Host.Outcome State Fault Refusal := done (doAdc s)
def execGpiRd (s : State) : Host.Outcome State Fault Refusal := done (doGpiRd s)
def execWait (s : State) : Host.Outcome State Fault Refusal := done (doPlainStep 9 s)
def execBranch (s : State) : Host.Outcome State Fault Refusal := done (doBranch s)
def execField (s : State) : Host.Outcome State Fault Refusal := done (doField s)
def execUartStepTimeout (s : State) : Host.Outcome State Fault Refusal := done (doUartStepTimeout s)
def execDebouncedEdge (edges : List (Nat × Bool)) (s : State) : Host.Outcome State Fault Refusal :=
  done (doDebouncedEdge edges s)
def execAlert (bus : Nat) (s : State) : Host.Outcome State Fault Refusal := done (onlyIf (bus < 2) (doAlert bus) s)
def execAlertRead (bus : Nat) (answer : I2cOutcome) (still : Bool) (s : State) : Host.Outcome State Fault Refusal :=
  done (onlyIf (bus < 2) (doAlertRead bus answer still) s)
def execAlertRetry (bus : Nat) (s : State) : Host.Outcome State Fault Refusal :=
  done (onlyIf (bus < 2) (doAlertRetry bus) s)
def execArbRetry (s : State) : Host.Outcome State Fault Refusal := done (doArbRetry s)
def execBusStuck (bus : Nat) (sclHigh sdaHigh : Bool) (s : State) : Host.Outcome State Fault Refusal :=
  done (doBusStuck bus sclHigh sdaHigh s)
def execPwrCycleEnd (rail : Nat) (s : State) : Host.Outcome State Fault Refusal := done (doPwrCycleEnd rail s)
def execRailSettleEnd (rail : Nat) (linesHigh : BitVec 4) (s : State) : Host.Outcome State Fault Refusal :=
  done (doRailSettleEnd rail linesHigh s)
def execCharacterReceived (uart : Nat) (char : UartChar) (s : State) : Host.Outcome State Fault Refusal :=
  done (doCharacterReceived uart char s)
def execFrameIdle (uart : Nat) (s : State) : Host.Outcome State Fault Refusal := done (doFrameIdle uart s)
def execStartBit (uart : Nat) (samples : BitVec 3) (s : State) : Host.Outcome State Fault Refusal :=
  done (onlyIf (uart < 4) (doStartBit uart samples) s)
def execConversion (code : Nat) (s : State) : Host.Outcome State Fault Refusal := done (doConversion code s)
def execSequenceStart (seq : Nat) (s : State) : Host.Outcome State Fault Refusal := done (doSequenceStart seq s)
def execGpoPulseEnd (gpo : Nat) (s : State) : Host.Outcome State Fault Refusal := done (doGpoPulseEnd gpo s)

end Sys2Proof.Machine
end

