-- ==== Sys2Proof/Machine/KvStore.lean ====
section
/-! DEFINITION. Machine/KvStore.lean: the key-value store beneath the operations: keys in byte order (R182, R256), where
values lie in logical sheaves and grains (R246 to R248), the write buffer, versions, holds and the incident window
(R184, R185, R200, R201), ring retention (R199), and what a committed change tells the twin (R341, R354). -/

namespace Sys2Proof.Machine

/-! ## The key index -/

/-- Byte order of keys: a key that is a prefix of another sorts first (R182, R202). -/
def keyLess : List Byte → List Byte → Bool
  | [], [] => false
  | [], _ :: _ => true
  | _ :: _, [] => false
  | a :: x, b :: y => if a.toNat < b.toNat then true else if b.toNat < a.toNat then false else keyLess x y

/-- Put an entry into a key list kept in byte order. -/
def keysPut : List KeyEntry → KeyEntry → List KeyEntry
  | [], e => [e]
  | f :: t, e => if f.key = e.key then e :: t else if keyLess e.key f.key then e :: f :: t else f :: keysPut t e

/-- A tenant's key, when it is present. -/
def State.findKey (s : State) (n : Nat) (key : List Byte) : Option KeyEntry :=
  (s.ten n).keys.find? fun e => decide (e.key = key)

def putKey (s : State) (n : Nat) (e : KeyEntry) : State := onTen s n fun t => { t with keys := keysPut t.keys e }
def dropKey (s : State) (n : Nat) (key : List Byte) : State :=
  onTen s n fun t => { t with keys := t.keys.filter fun e => decide (e.key ≠ key) }

/-- Held while either hold bit is 1 (R200). -/
def keyHeld (e : KeyEntry) : Bool := e.client || e.incident

/-- A reserved key: its first byte is 0xFF (R183). -/
def reservedKey (key : List Byte) : Bool := key.head? = some 0xFF

/-! ## The write buffer and logical space (R246, R247, R253) -/

/-- `cnt` grains of a sheaf from grain `g` hold new bytes in the write buffer. A write abandons a fold (R251). A grain whose
bytes wait already keeps its time in the buffer. -/
def markDirty (s : State) (h g cnt : Nat) : State :=
  let w := s.ftl.writeSeq
  let s := { s with ftl := { s.ftl with writeSeq := w + 1 } }
  onSheaf s h fun x =>
    { x with dirty := (List.range cnt).foldl (fun d i => storeInsert d (g + i) w) x.dirty
             since := (List.range cnt).foldl (fun d i => if (storeFind d (g + i)).isSome then d else storeInsert d (g + i) s.hub.tick) x.since
             lastWrite := s.ft.ns, folding := none, access := w }

/-- A new logical sheaf of tenant `n`. -/
def newSheaf (s : State) (n : Nat) (whole : Bool) (alloc rot : Nat) : Nat × State :=
  let h := s.ftl.nextSheaf
  (h, setSheaf { s with ftl := { s.ftl with nextSheaf := h + 1 } } h
        { tenant := n, whole := whole, alloc := alloc, rot := rot })

/-- The tenant's open shared sheaf, a new one when there is none or its grains are all allocated (R247). -/
def openShared (s : State) (n : Nat) : Nat × State :=
  let fresh : Nat × State :=
    let (h, s) := newSheaf s n false 0 0
    (h, onTen s n fun t => { t with openSheaf := some h })
  match (s.ten n).openSheaf with
  | some h => if (s.sheaf h).alloc < 256 then (h, s) else fresh
  | none => fresh

/-- Allocate up to `want` of the lowest free grains of the open shared sheaf: (sheaf, first grain, grains taken). -/
def allocIn (s : State) (n want : Nat) : (Nat × Nat × Nat) × State :=
  let (h, s) := openShared s n
  let a := (s.sheaf h).alloc
  let got := min want (256 - a)
  ((h, a, got), onSheaf s h fun x => { x with alloc := a + got })

/-- Place a tail of `g` grains: one piece, or two when the open shared sheaf cannot take it whole (R247). -/
def placeTail (s : State) (n g : Nat) : List (Nat × Nat × Nat) × State :=
  if g = 0 then ([], s)
  else
    let ((h, f, got), s) := allocIn s n g
    let s := markDirty s h f got
    if got = g then ([(h, f, got)], s)
    else
      let ((h2, f2, got2), s) := allocIn s n (g - got)
      ([(h, f, got), (h2, f2, got2)], markDirty s h2 f2 got2)

/-- The lowest run of `n` free 64-byte slots of a pack grain. -/
def freeRun (used : BitVec 64) (n : Nat) : Option Nat :=
  (List.range (65 - n)).find? fun i => (List.range n).all fun j => !used.getLsbD (i + j)

/-- The mask of `n` slots from slot `i`. -/
def slotMask (i n : Nat) : BitVec 64 := BitVec.ofNat 64 ((2 ^ n - 1) * 2 ^ i)

/-- The slots in use of a pack grain. -/
def State.packOf (s : State) (h g : Nat) : BitVec 64 := storeLook (s.sheaf h).packs g 0

def setPack (s : State) (h g : Nat) (m : BitVec 64) : State :=
  onSheaf s h fun x => { x with packs := storePut x.packs g 0 m }

/-- Place `k` consecutive slots: in the tenant's present pack grain, or in a new one (R246, R247). Which pack grain takes
a new value the manual leaves open (DESIGN CHOICE, log 11): the latest one opened, lowest free run first. -/
def placePacked (s : State) (n k : Nat) : (Nat × Nat × Nat) × State :=
  let fresh : (Nat × Nat × Nat) × State :=
    let ((h, g, _), s) := allocIn s n 1
    let s := onTen s n fun t => { t with packGrain := some (h, g) }
    ((h, g, 0), markDirty (setPack s h g (slotMask 0 k)) h g 1)
  match (s.ten n).packGrain with
  | none => fresh
  | some (h, g) =>
    match freeRun (s.packOf h g) k with
    | none => fresh
    | some i => ((h, g, i), markDirty (setPack s h g (s.packOf h g ||| slotMask i k)) h g 1)

/-- The sheaf is closed: a whole sheaf, or a shared sheaf with every grain allocated (R247). -/
def sheafClosed (x : Sheaf) : Bool := x.whole || decide (256 ≤ x.alloc)

/-- `cnt` grains of a sheaf from grain `g` are no longer used by any key; a closed sheaf with nothing live is freed. -/
def killGrains (s : State) (h g cnt : Nat) : State :=
  let x := s.sheaf h
  let dead := (List.range cnt).foldl (fun d i => setAdd d (g + i)) x.dead
  let out {α : Type} (m : Store α) : Store α := m.filter fun e => decide (e.1 < g ∨ g + cnt ≤ e.1)
  let x := { x with dead := dead, dirty := out x.dirty, since := out x.since }
  if sheafClosed x && decide (256 ≤ dead.length) then
    setSheaf (onTen s x.tenant fun t => { t with openSheaf := if t.openSheaf = some h then none else t.openSheaf }) h noSheaf
  else setSheaf s h x

/-- Free `k` slots of a pack grain; a pack grain with no slot in use is dead. -/
def freeSlots (s : State) (n h g i k : Nat) : State :=
  let m := s.packOf h g &&& ~~~ slotMask i k
  let s := setPack s h g m
  if m = 0 then
    killGrains (onTen s n fun t => { t with packGrain := if t.packGrain = some (h, g) then none else t.packGrain }) h g 1
  else s

/-- Free what a layout occupies. -/
def freeLayout (s : State) (n : Nat) (l : Layout) : State :=
  match l with
  | .none => s
  | .packed h g i k => freeSlots s n h g i k
  | .big whole tail desc =>
    let s := overList (fun s h => setSheaf s h noSheaf) whole s
    let s := overList (fun s (p : Nat × Nat × Nat) => killGrains s p.1 p.2.1 p.2.2) tail s
    match desc with
    | some (h, g, i) => freeSlots s n h g i 1
    | none => s

/-- New whole sheaves of a value, `k` of them, at the positions from the rotation pointer on, which advances (R254). -/
def placeWhole (s : State) (n k : Nat) : List Nat × State :=
  let p := (s.ten n).rotPtr
  let (l, s) := (List.range k).foldl
    (fun (acc : List Nat × State) i =>
      let (h, s) := newSheaf acc.2 n true 256 (p + i)
      (acc.1 ++ [h], markDirty s h 0 256)) ([], s)
  (l, if k = 0 then s else onTen s n fun t => { t with rotPtr := p + k })

/-- 64-byte slots of a packed value (Table 9.4). -/
def packSlots (len : Nat) : Nat := ceilDiv (max len 1) 64

/-- Lay a value of `len` bytes out (R246, Table 9.4). -/
def placeValue (s : State) (n len : Nat) : Layout × State :=
  if len ≤ 2048 then
    let ((h, g, i), s) := placePacked s n (packSlots len)
    (.packed h g i (packSlots len), s)
  else
    let w := len / 1048576
    let (whole, s) := placeWhole s n w
    let (desc, s) := if w = 0 then (none, s) else
      let (d, s) := placePacked s n 1
      (some d, s)
    let (tail, s) := placeTail s n (ceilDiv (len % 1048576) 4096)
    (.big whole tail desc, s)

/-- Lay out what a key holds; an alias occupies one slot (R246). -/
def placeContent (s : State) (n : Nat) (c : Content) : Layout × State :=
  match c with
  | .value bs => placeValue s n bs.length
  | .aliasTo _ =>
    let ((h, g, i), s) := placePacked s n 1
    (.packed h g i 1, s)

/-- The grains of a tail. -/
def tailGrains (tail : List (Nat × Nat × Nat)) : Nat := sumBy (fun p => p.2.2) tail

/-- Free grains of the tenant's open shared sheaf, a new one counting when it has none. -/
def openRoom (s : State) (n : Nat) : Nat :=
  match (s.ten n).openSheaf with
  | some h => if (s.sheaf h).alloc < 256 then 256 - (s.sheaf h).alloc else 256
  | none => 256

/-- Extend a tail of one or two pieces by `need` grains (R248 steps 3 and 4). -/
def growTail (s : State) (n : Nat) (tail : List (Nat × Nat × Nat)) (need : Nat) : List (Nat × Nat × Nat) × State :=
  if need = 0 then (tail, s)
  else
    match tail.getLast? with
    | none => placeTail s n need
    | some (h, f, c) =>
      let x := s.sheaf h
      let room := if (s.ten n).openSheaf = some h && decide (x.alloc = f + c) then min need (256 - x.alloc) else 0
      let s := onSheaf s h fun x => { x with alloc := x.alloc + room }
      let s := if room = 0 then s else markDirty s h (f + c) room
      let tail := tail.dropLast ++ [(h, f, c + room)]
      let left := need - room
      if left = 0 then (tail, s)
      else if tail.length = 1 && decide (left ≤ openRoom s n) then
        let (p, s) := placeTail s n left
        (tail ++ p, s)
      else
        let g := tailGrains tail + left
        let s := overList (fun s (p : Nat × Nat × Nat) => killGrains s p.1 p.2.1 p.2.2) tail s
        placeTail s n g

/-- APPEND of `add` bytes to a value of `len` bytes laid out as `l` (R248): its new layout. -/
def appendLayout (s : State) (n : Nat) (l : Layout) (len add : Nat) : Layout × State :=
  match l with
  | .none => (.none, s)
  | .packed h g i k =>
    let k2 := packSlots (len + add)
    let more := slotMask (i + k) (k2 - k)
    if len + add ≤ 2048 && decide (i + k2 ≤ 64) && s.packOf h g &&& more = 0 then
      (.packed h g i k2, markDirty (setPack s h g (s.packOf h g ||| more)) h g 1)
    else placeValue (freeSlots s n h g i k) n (len + add)
  | .big whole tail desc =>
    -- step 1: the last grain's free part is filled first
    let s := if len % 4096 = 0 then s else
      match tail.getLast?, whole.getLast? with
      | some (h, f, c), _ => markDirty s h (f + c - 1) 1
      | none, some h => markDirty s h ((len / 4096) % 256) 1
      | none, none => s
    -- step 5: every 256 grains of the tail are a whole sheaf
    let grains := ceilDiv (len + add) 4096 - 256 * whole.length
    if grains < 256 then
      let (tail, s) := growTail s n tail (grains - tailGrains tail)
      (.big whole tail desc, s)
    else
      let s := overList (fun s (p : Nat × Nat × Nat) => killGrains s p.1 p.2.1 p.2.2) tail s
      let (more, s) := placeWhole s n (grains / 256)
      let (desc, s) := if whole.isEmpty then
          let (d, s) := placePacked s n 1
          (some d, s)
        else (desc, s)
      let (rest, s) := placeTail s n (grains % 256)
      (.big (whole ++ more) rest desc, s)

/-! ## Grain regions and slots (R257) -/

/-- Free 43 slots by evicting the resident region accessed least recently. -/
def evictRegion (s : State) : State :=
  let res := s.ftl.sheaves.filter fun e => e.2.mapping = 2 && e.2.resident
  match res.foldl (fun (b : Option (Nat × Sheaf)) e =>
      match b with
      | none => some e
      | some f => if e.2.access < f.2.access then some e else b) none with
  | none => s
  | some e => bump (onSheaf s e.1 fun x => { x with resident := false }) Pg.FTL 0x070

/-- A key is to be created: make a slot free (R257). -/
def makeSlot (s : State) : State := if slotsFree s = 0 then evictRegion s else s

/-- A region that a command needs and that was evicted is read back, and reloaded when slots are free (R257). -/
def touchRegion (s : State) (h : Nat) : State :=
  let x := s.sheaf h
  let w := s.ftl.writeSeq
  let s := { s with ftl := { s.ftl with writeSeq := w + 1 } }
  if x.mapping = 2 then
    if x.resident then onSheaf s h fun x => { x with access := w }
    else
      let s := bump s Pg.FTL 0x078
      if 43 ≤ slotsFree s then onSheaf s h fun x => { x with resident := true, access := w } else s
  else s

/-! ## The twin's part in a tenant (R339, R340, R350) -/

/-- What a committed change of tenant `n` does beyond this LH-96: nothing, a MIRROR message, or a divergence entry. -/
inductive Beyond where
  | nothing | mirror | diverge
  deriving DecidableEq, Repr

def State.beyond (s : State) (n : Nat) : Beyond :=
  if !s.mirrored n then .nothing
  else
    match s.acd.pair with
    | .alone | .foreign => .nothing
    | .paired =>
      if s.unmatched n then .diverge
      else if s.leads n || storeLook s.acd.handover n 0 = 3 then .mirror else .nothing
    | .catchup => if s.acd.resolved.contains n && s.leads n then .mirror else .diverge
    | .joining | .split | .isolated | .away => .diverge

/-- DIV_MAX × 1,024, and the entries of all tenants. -/
def State.divMax (s : State) : Nat := s.fld Pg.ACD Off.ACD_DIV_CFG 15 0 * 1024
def divCount (s : State) : Nat := sumBy (fun e => e.2.length) s.acd.div

/-- A tenant's divergence becomes FULL (R354). -/
def makeDivFull (s : State) (n : Nat) : State :=
  if s.acd.divFull.contains n then s
  else internalErr (setFlag (onAcd s fun a => { a with divFull := setAdd a.divFull n }) Pg.ACD 11) Pg.ACD 0x41

/-- Join two lists of changed ranges of one key: no ranges means the whole, and beyond 8 the whole is named (R354). -/
def joinRanges (old : Option (List (Nat × Nat))) (new : List (Nat × Nat)) : List (Nat × Nat) :=
  match old with
  | none => new
  | some o => if o.isEmpty ∨ new.isEmpty ∨ 8 < (o ++ new).length then [] else o ++ new

/-- Record a change in the tenant's divergence set (R354). -/
def recordDiv (s : State) (n : Nat) (key : List Byte) (version epoch : Nat) (deleted : Bool)
    (ranges : List (Nat × Nat)) : State :=
  let l := storeLook s.acd.div n []
  let old := l.find? fun e => decide (e.key = key)
  if s.acd.divFull.contains n then s
  else if old.isNone && decide (s.divMax ≤ divCount s) then makeDivFull s n
  else
    let e : DivEntry :=
      { key := key, version := version, epoch := epoch, deleted := deleted
        ranges := joinRanges (old.map DivEntry.ranges) ranges }
    onAcd s fun a =>
      { a with div := storePut a.div n [] (l.filter (fun d => decide (d.key ≠ key)) ++ [e]) }

/-- Tell the twin of a committed change, or record it (R341, R350, R354). `waiting` is the operation that waits for
MIRRORED. -/
def tellTwin (s : State) (n : Nat) (m : MirrorOp) (waiting : Option Nat) (ranges : List (Nat × Nat)) : State :=
  let deleted := m.opcode = 0x14
  match s.beyond n with
  | .nothing => s
  | .diverge => if m.swap.isSome then s else recordDiv s n m.key m.version s.acd.epoch deleted ranges
  | .mirror =>
    let q := storeLook s.acd.mseqNext n 0
    let s := onAcd s fun a =>
      { a with
        mseqNext := storePut a.mseqNext n 0 ((q + 1) % 2 ^ 32)
        out := a.out ++ [.mirror n q m]
        backlog := a.backlog ++ [{ tenant := n, mseq := q, key := m.key, version := m.version, deleted := deleted
                                   commitNs := s.ft.ns, waiting := waiting }] }
    bump s Pg.ACD 0x0B0

/-! ## Versions and commits (R184 to R186) -/

/-- Take the tenant's next version (R184). -/
def nextVersion (s : State) (n : Nat) : Nat × State :=
  let v := (s.ten n).verCtr + 1
  (v, onTen s n fun t => { t with verCtr := v })

/-- KCV of a key: the first 3 bytes of the HMAC-SHA-256 of 16 zero bytes (R87). -/
def kcvOf (key : List Byte) : Nat := beNat ((hmac256 key (List.replicate 16 0)).take 3)
def State.slotKcv (s : State) (slot : Nat) : Nat := match s.slotKey slot with
  | some k => kcvOf k
  | none => 0

/-- The mirrored form of a hold change (Table 12.8). -/
def holdOp (key : List Byte) (version : Nat) (hold incident : Bool) : MirrorOp :=
  { opcode := 0x15, key := key, version := version
    options := BitVec.ofNat 32 (b2n hold 8 + b2n incident 32), value := [] }

/-- The key's time span meets [t − PRE_S, t + POST_S] (R201). -/
def spanMeets (e : KeyEntry) (lo : Int) (hi : Nat) : Bool := decide (e.firstNs ≤ hi) && decide (lo ≤ (e.lastNs : Int))

/-- Set INCIDENT on a key that does not carry it (R201). -/
def incidentHold (s : State) (n : Nat) (e : KeyEntry) : State :=
  if e.incident then s
  else
    let s := bump (putKey s n { e with incident := true }) Pg.KVX 0x050
    tellTwin s n (holdOp e.key e.version true true) none []

/-- A key committed while the incident window is open is held (R201). -/
def windowHold (s : State) (n : Nat) (key : List Byte) : State :=
  let w := s.fratra.incident
  match s.findKey n key with
  | some e => if w.openNow && decide (w.tenant = n) && decide (e.firstNs ≤ w.endNs) then incidentHold s n e else s
  | none => s

/-- What a commit puts into the key index. -/
structure Commit where
  tenant : Nat
  key : List Byte
  content : Content
  layout : Layout
  firstNs : Nat
  version : Nat
  deriving DecidableEq, Repr

/-- The tenant's key count rises from 0: AES_KCV takes the check value of its slot (R231). -/
def noteFirstKey (s : State) (n : Nat) : State :=
  if (s.ten n).keys.isEmpty then onTen s n fun t => { t with aesKcv := s.slotKcv n } else s

/-- Apply a commit to the key index: version, epoch, time span, holds kept, damage gone (R184, R185, R206). Its deltas go to
the journal in the same step, so that none stay staged (R304; DESIGN CHOICE, log 134). -/
def applyCommit (s : State) (c : Commit) : State :=
  let old := s.findKey c.tenant c.key
  let s := if old.isNone then makeSlot s else s
  let s := noteFirstKey s c.tenant
  let base : KeyEntry := old.getD { key := c.key, content := c.content, version := 0 }
  putKey s c.tenant
    { base with content := c.content, version := c.version, epoch := s.acd.epoch, firstNs := c.firstNs
                lastNs := s.ft.ns, lastMode := modeNum s.ft.mode, lastStep := s.ft.stepCount, damage := .none
                nameLost := false, broken := [], layout := c.layout }

/-- Value bytes of a tenant moved at the DRAM arbitration point: counted by note (R267, Table 8.1) and charged to it. -/
def dramMoved (s : State) (n bytes : Nat) : State :=
  serveAlone (bumpBy s Pg.DRAM (0x058 + 8 * s.schedNote n) bytes) 2 n bytes

/-- Bytes that upkeep moves through DRAM (R267). -/
def upkeepMoved (s : State) (bytes : Nat) : State := bumpBy s Pg.DRAM 0x070 bytes

/-! ## KIND 2 NOTIFY (R227) -/

/-- A key of tenant `n` became LOST or HEALING, or was healed (status 0). -/
def keyEvent (s : State) (n : Nat) (key : List Byte) (status : Nat) : State :=
  if !s.bit (Pg.TEN n) Off.TEN_NOTIFY_CFG 0 then s
  else
    let sec := s.ft.ns / 1000000000
    let t := s.ten n
    let sent := if t.keyEvSec = sec then t.keyEvSent else 0
    if sent < s.fld (Pg.TEN n) Off.TEN_NOTIFY_CFG 31 16 then
      sendNotify (onTen s n fun t => { t with keyEvSec := sec, keyEvSent := sent + 1 }) n 2 key status []
    else dropNotify (onTen s n fun t => { t with keyEvSec := sec, keyEvSent := sent }) n

/-- Healing has nothing left: HEAL_DONE (R297). -/
def healCheck (s : State) : State :=
  if s.ftl.health.healing && damageCount s .healing = 0 then
    setFlag (onHealth s fun h => { h with healing := false, waitingTwin := false }) Pg.HLTH 5
  else s

/-- A key that stood as `was` has left the HEALING state, however it did: HEALED is set with the tenant's last HEALING key
(R287). -/
def leftHealing (s : State) (n : Nat) (was : KeyEntry) : State :=
  if was.damage = .healing then
    healCheck (onlyIf ((s.ten n).keys.all fun k => decide (k.damage ≠ .healing)) (fun s => setFlag s (Pg.TEN n) 8) s)
  else s

/-- A key that stood as `was` is healed, by the twin's data or by a write (R206): a KIND 2 NOTIFY tells of it (R227). -/
def healedCheck (s : State) (n : Nat) (was : Option KeyEntry) : State :=
  match was with
  | some e => if e.damage = .healing then keyEvent (leftHealing s n e) n e.key 0 else s
  | none => s

/-! ## Commits -/

/-- Commit a value or alias to a key: new layout, new version, incident hold, the twin (R184 to R187, R341). Answers
the version. `carr` is the carriage of the request, in a mirrored operation's prefix; DEDUCED (log 131): all 0 for one that no
frame brought. -/
def commitPut (s : State) (n : Nat) (key : List Byte) (c : Content) (firstNs : Nat) (waiting : Option Nat)
    (carr : Carriage := { kind := 0 }) : Nat × State :=
  let old := s.findKey n key
  let (lay, s) := placeContent s n c
  let (v, s) := nextVersion s n
  let s := applyCommit s { tenant := n, key := key, content := c, layout := lay, firstNs := firstNs, version := v }
  let s := match old with
    | some e => freeLayout s n e.layout
    | none => s
  let s := healedCheck s n old
  let m : MirrorOp := match c with
    | .value bs => { opcode := 0x10, key := key, version := v, options := 0, value := bs, carriage := carr }
    | .aliasTo t => { opcode := 0x20, key := key, version := v, options := 0, value := t, carriage := carr }
  (v, windowHold (tellTwin s n m waiting []) n key)

/-- The grains that an APPEND changes in a value with whole sheaves, for its divergence entry (R354). -/
def appendRange (old new : Nat) : List (Nat × Nat) :=
  if new < 1048576 then [] else [(old / 4096, ceilDiv new 4096 - old / 4096)]

/-- Commit an APPEND to a key that holds a value (R248). Answers the version. -/
def commitAppend (s : State) (n : Nat) (e : KeyEntry) (old add : List Byte) (waiting : Option Nat)
    (carr : Carriage := { kind := 0 }) : Nat × State :=
  let (lay, s) := appendLayout s n e.layout old.length add.length
  let (v, s) := nextVersion s n
  let s := applyCommit s
    { tenant := n, key := e.key, content := .value (old ++ add), layout := lay, firstNs := e.firstNs, version := v }
  let m : MirrorOp :=
    { opcode := 0x12, key := e.key, version := v, options := 0, value := add, offset := old.length, carriage := carr }
  (v, windowHold (tellTwin s n m waiting (appendRange old.length (old.length + add.length))) n e.key)

/-- Remove a key's data and its index entry. -/
def eraseKey (s : State) (n : Nat) (e : KeyEntry) : State :=
  leftHealing (dropKey (freeLayout s n e.layout) n e.key) n e

/-- Commit a deletion, which takes a version (R184, R199). -/
def commitDelete (s : State) (n : Nat) (e : KeyEntry) (waiting : Option Nat) (carr : Carriage := { kind := 0 }) : State :=
  let (v, s) := nextVersion s n
  let s := eraseKey s n e
  tellTwin s n { opcode := 0x14, key := e.key, version := v, options := 0, value := [], carriage := carr } waiting []

/-- Set the hold bits of a key: HOLD sets CLIENT, RELEASE clears both (R200). -/
def commitHold (s : State) (n : Nat) (e : KeyEntry) (hold : Bool) (waiting : Option Nat)
    (carr : Carriage := { kind := 0 }) : State :=
  let s := putKey s n (if hold then { e with client := true } else { e with client := false, incident := false })
  tellTwin s n { holdOp e.key e.version hold false with carriage := carr } waiting []

/-! ## Ring retention (R199) -/

/-- Ring retention skips a key: held, or covered by the open incident window though its hold is not set yet (R201). -/
def ringSkips (s : State) (n : Nat) (e : KeyEntry) : Bool :=
  let w := s.fratra.incident
  keyHeld e || (w.openNow && decide (w.tenant = n) && spanMeets e w.startNs w.endNs)

/-- The unheld key with the lowest version. -/
def ringVictim (s : State) (n : Nat) : Option KeyEntry :=
  (s.ten n).keys.foldl (fun b e =>
    if ringSkips s n e then b
    else match b with
      | none => some e
      | some f => if e.version < f.version then some e else b) none

/-- Delete unheld keys, lowest version first, until `charge` fits the quota; at most `fuel` of them. -/
def ringDelete (n charge : Nat) : Nat → State → State
  | 0, s => s
  | fuel + 1, s =>
    if usedCharge s n + charge ≤ s.quotaBytes n then s
    else
      match ringVictim s n with
      | none => s
      | some e =>
        ringDelete n charge fuel
          (bumpBy (bump (commitDelete s n e none) Pg.KVX 0x040) Pg.KVX 0x048 (contentCharge e.content))

/-- Judge a reservation of `charge` bytes (R199, R244): whether it fits, after what ring retention deletes. -/
def reserveFits (s : State) (n charge : Nat) : Bool × State :=
  let hit (s : State) : Bool × State := (false, setFlag s (Pg.TEN n) 2)
  if usable s = 0 ∧ 0 < charge then hit s
  else if usedCharge s n + charge ≤ s.quotaBytes n then (true, s)
  else if !s.bit (Pg.TEN n) Off.TEN_TEN_CFG 3 then hit s
  else
    let before := (s.ten n).keys.length
    let s := ringDelete n charge before s
    let s := if (s.ten n).keys.length < before then setFlag s (Pg.TEN n) 3 else s
    if usedCharge s n + charge ≤ s.quotaBytes n then (true, s) else hit (setFlag s Pg.KVX 3)

end Sys2Proof.Machine
end

