-- ==== Sys2Proof/Machine/Damage.lean ====
section
/-! DEFINITION. Machine/Damage.lean: affected keys, HEALING and LOST (R206, R285 to R289), the health log (R290, R291). -/

namespace Sys2Proof.Machine

/-! ## The health log (R290, R291) -/

/-- The key of a part of an event. -/
def hlogKey (num part : Nat) : List Byte := [0xFF, 0x48, 0x4C, 0x47] ++ beBytes 4 num ++ beBytes 2 part

/-- Part 0 of an event (R290). -/
def hlogHeader (e : HlogEvent) : List Byte :=
  [BitVec.ofNat 8 e.cause] ++ beBytes 2 e.lun ++ [0] ++ ftBytes e.ns e.mode e.step ++ beBytes 8 e.affected ++
    beBytes 2 e.parts.length ++ List.replicate 6 0

/-- Write one health-log key; what does not fit TC0's quota is not written, and is counted when it is a record (R291).
DESIGN CHOICE (log 124): the same where the Harvest budget has no room for it (R13). -/
def hlogPut (s : State) (num part : Nat) (value : List Byte) : Bool × State :=
  let key := hlogKey num part
  let old := ((s.findKey 0 key).map fun e => contentCharge e.content).getD 0
  let t := (commitPut s 0 key (.value value) s.ft.ns none).2
  if usedCharge s 0 + chargeOf value.length ≤ s.quotaBytes 0 + old && budgetHolds s t then (true, t) else (false, s)

/-- Change one event of the log. -/
def onEvent (s : State) (num : Nat) (f : HlogEvent → HlogEvent) : State :=
  onHealth s fun h => { h with events := h.events.map fun e => if e.num = num then f e else e }
def State.event (s : State) (num : Nat) : Option HlogEvent := s.ftl.health.events.find? fun e => decide (e.num = num)

/-- Write an event's header as it stands. -/
def writeHeader (s : State) (num : Nat) : State :=
  match s.event num with
  | none => s
  | some e => (hlogPut s num 0 (hlogHeader e)).2

/-- Open a health-log event: its number, and the machine (R291). `lun` is 0xFFFF for a DRAM error. -/
def openEvent (s : State) (cause lun : Nat) (identRunning : Bool) : Nat × State :=
  let num := s.ftl.health.eventNum + 1
  let e : HlogEvent :=
    { num := num, cause := cause, lun := lun, ns := s.ft.ns, mode := modeNum s.ft.mode, step := s.ft.stepCount
      affected := 0, identRunning := identRunning }
  (num, writeHeader (onHealth s fun h => { h with eventNum := num, events := h.events ++ [e] }) num)

/-- A record of the log (R290): 1 LOST, 2 HEALING, 3 HEALED, 4 NAME_LOST. -/
def hlogRecord (s : State) (kind n : Nat) (key : List Byte) (version twin : Nat) : List Byte :=
  [BitVec.ofNat 8 kind, BitVec.ofNat 8 n, BitVec.ofNat 8 key.length] ++ key ++ beBytes 8 version ++ beBytes 8 twin ++
    ftNow s

/-- Append a record to an event: into its last part, or a new part when it would pass 1 MiB (R290, R291). -/
def addRecord (s : State) (num : Nat) (rec : List Byte) : State :=
  match s.event num with
  | none => s
  | some e =>
    let (parts, i) := match e.parts.getLast? with
      | some p => if p.length + rec.length ≤ 1048576 then (e.parts.dropLast ++ [p ++ rec], e.parts.length)
        else (e.parts ++ [rec], e.parts.length + 1)
      | none => ([rec], 1)
    let (fits, s) := hlogPut s num i ((parts.getLast?).getD [])
    if fits then onEvent s num fun e => { e with parts := parts }
    else setFlag (bump s Pg.HLTH 0x080) Pg.HLTH 7

/-! ## Where a value's grains lie -/

/-- The number of a grain within a value: its first byte is 4,096 times that (R246). A descriptor counts as grain 0. -/
def grainIndex (l : Layout) (h g : Nat) : Option Nat :=
  match l with
  | .none => none
  | .packed h0 g0 _ _ => if h0 = h ∧ g0 = g then some 0 else none
  | .big whole tail desc =>
    match whole.findIdx? (fun w => decide (w = h)) with
    | some k => some (256 * k + g)
    | none =>
      let base := 256 * whole.length
      let find (acc : Nat × Option Nat) (p : Nat × Nat × Nat) : Nat × Option Nat :=
        (acc.1 + p.2.2,
          if acc.2.isSome then acc.2
          else if p.1 = h ∧ p.2.1 ≤ g ∧ g < p.2.1 + p.2.2 then some (base + acc.1 + (g - p.2.1)) else none)
      match (tail.foldl find (0, none)).2 with
      | some i => some i
      | none => match desc with
        | some (dh, dg, _) => if dh = h ∧ dg = g then some 0 else none
        | none => none

/-- Every logical grain of a layout. -/
def layoutGrains (l : Layout) : List (Nat × Nat) :=
  match l with
  | .none => []
  | .packed h g _ _ => [(h, g)]
  | .big whole tail desc =>
    (whole.flatMap fun h => (List.range 256).map fun g => (h, g)) ++
    (tail.flatMap fun p => (List.range p.2.2).map fun i => (p.1, p.2.1 + i)) ++
    (match desc with
      | some (h, g, _) => [(h, g)]
      | none => [])

/-- Where a logical grain lies in flash, when it does. -/
def grainLoc (x : Sheaf) (g : Nat) : Option Loc :=
  if x.mapping = 1 then x.slot.map fun l => { l with pos := l.pos + g }
  else if x.mapping = 2 then storeFind x.grains g
  else none

/-- The write buffer holds a logical grain's current bytes (R253). -/
def dirtyGrain (s : State) (h g : Nat) : Bool := (storeFind (s.sheaf h).dirty g).isSome

/-- A logical grain cannot be read: it lies on a failed or absent LUN and not in the write buffer. -/
def grainLost (s : State) (hg : Nat × Nat) : Bool :=
  let x := s.sheaf hg.1
  if dirtyGrain s hg.1 hg.2 then false
  else
    match grainLoc x hg.2 with
    | some l => !lunInOrder (s.lun l.lun)
    | none => false

/-- The first grain of a value, which its name record accompanies (R285). -/
def homeGrain (l : Layout) : Option (Nat × Nat) :=
  match l with
  | .none => none
  | .packed h g _ _ => some (h, g)
  | .big (h :: _) _ _ => some (h, 0)
  | .big [] ((h, f, _) :: _) _ => some (h, f)
  | .big [] [] _ => none

/-- The name record of a key was lost with its home LUN (R285). -/
def nameGone (s : State) (e : KeyEntry) : Bool :=
  match homeGrain e.layout with
  | some (h, g) => match grainLoc (s.sheaf h) g with
    | some l => !lunInOrder (s.lun l.lun)
    | none => false
  | none => false

/-! ## Affected keys (R286 to R289) -/

/-- The twin can be asked: PAIRED or CATCHUP with the link up. -/
def twinAnswers (s : State) : Bool := s.acd.pair = .paired || s.acd.pair = .catchup

/-- Ask the twin for a key, or wait for it (R287). -/
def askTwin (s : State) (n : Nat) (e : KeyEntry) : State :=
  if twinAnswers s then
    onAcd s fun a => { a with out := a.out ++
      [.keyReq { tenant := n, nameLost := e.nameLost, key := if e.nameLost then [] else e.key, version := e.version
                 ranges := e.broken }] }
  else onHealth s fun h => { h with waitingTwin := true }

/-- A key becomes LOST (R289); one whose name is lost leaves the key space. -/
def loseKey (s : State) (n : Nat) (e : KeyEntry) (num twin : Nat) : State :=
  let s := bump s Pg.HLTH 0x070
  if e.nameLost && !s.mirrored n then
    let (v, s) := nextVersion s n
    let s := eraseKey s n e
    setFlag (addRecord s num (hlogRecord s 4 n [] v twin)) (Pg.TEN n) 6
  else
    let s := leftHealing (putKey s n { e with damage := .lost }) n e
    let s := addRecord s num (hlogRecord s 1 n e.key e.version twin)
    keyEvent (setFlag s (Pg.TEN n) 6) n e.key 0x000B

/-- A key is affected by event `num`: grains that cannot be read, and whether its name is lost (R286, R287, R289). -/
def affectKey (s : State) (n : Nat) (e : KeyEntry) (num : Nat) (broken : List (Nat × Nat)) (nameLost : Bool) : State :=
  let s := onEvent s num fun v => { v with affected := v.affected + 1 }
  let e2 := { e with broken := e.broken ++ broken, nameLost := e.nameLost || nameLost }
  if s.mirrored n then
    let s := putKey s n { e2 with damage := .healing }
    let s := addRecord s num (hlogRecord s 2 n e.key e.version 0)
    let s := onHealth s fun h => { h with healing := true }
    if e.damage = .healing then s
    else keyEvent (setFlag (askTwin s n e2) (Pg.TEN n) 7) n e.key 0x000C
  else if e.damage = .lost then putKey s n e2
  else loseKey (putKey s n e2) n e2 num 0

/-- The grains of a key that lie on failed LUNs, as ranges of the value. -/
def lostRanges (s : State) (e : KeyEntry) : List (Nat × Nat) :=
  (layoutGrains e.layout).filterMap fun hg =>
    if grainLost s hg then (grainIndex e.layout hg.1 hg.2).map fun i => (i, 1) else none

/-- The latest event of a die: the one whose scan runs, or the last. -/
def dieEvent (s : State) (lun : Nat) : Nat :=
  match (s.ftl.health.events.filter fun e => decide (e.lun = lun)).getLast? with
  | some e => e.num
  | none => 0

/-- A read of a key uses the grain regions of the sheaves from which flash serves it; an evicted one is read again (R257). What
is dirty comes from the write buffer (R253). -/
def readRegions (s : State) (e : KeyEntry) : State :=
  let inFlash (hg : Nat × Nat) : Bool := (s.sheaf hg.1).dirty.all fun d => decide (d.1 ≠ hg.2)
  overList touchRegion (((layoutGrains e.layout).filter inFlash).foldl (fun l hg => setAdd l hg.1) []) s

/-- A read that resolves a location on a failed die makes its key affected at once (R286). -/
def touchKey (s : State) (n : Nat) (e : KeyEntry) : State :=
  let r := lostRanges s e
  if r.isEmpty ∨ e.damage ≠ .none then s
  else
    let lun := ((layoutGrains e.layout).findSome? fun hg =>
      if grainLost s hg then (grainLoc (s.sheaf hg.1) hg.2).map Loc.lun else none).getD 0
    affectKey s n e (dieEvent s lun) r (nameGone s e)

/-- The order in which tenants are healed: Top, Heart, Base (R287); TC0 counts as Top. -/
def healOrder : State → List Nat := fun s =>
  let of (k : Nat) := (List.range 64).filter fun n => s.schedNote n = k
  of 0 ++ of 1 ++ of 2

/-- Every key with a grain on a failed LUN that no scan has reached yet (R286). -/
def scanDamage (s : State) (num : Nat) : State :=
  (healOrder s).foldl (fun s n =>
    (s.ten n).keys.foldl (fun s e =>
      let r := lostRanges s e
      if r.isEmpty ∨ e.damage ≠ .none then s else affectKey s n e num r (nameGone s e)) s) s

/-- Every key that uses one of the logical grains `gs`, or whose name record is among `names`, is affected: each key once in
the event (R271, Table 9.7, Table 10.9). -/
def affectGrains (s : State) (num : Nat) (gs : List (Nat × Nat)) (names : List (Nat × List Byte)) : State :=
  (healOrder s).foldl (fun s n =>
    (s.ten n).keys.foldl (fun s e =>
      let broken := (gs.filterMap fun g => grainIndex e.layout g.1 g.2).map fun i => (i, 1)
      let gone := names.contains (n, e.key)
      if broken.isEmpty && !gone then s else affectKey s n e num broken gone) s) s

/-- The event a key's later records belong to: the last of the log. -/
def lastEvent (s : State) : Nat := s.ftl.health.eventNum

end Sys2Proof.Machine
end

