-- ==== Sys2Proof/Machine/Eth.lean ====
section
/-! DEFINITION. Machine/Eth.lean: the Ethernet ports (chapter 05): links, reception, filters, steering, admission, flow
control, transmission, and the port snapshot. -/

namespace Sys2Proof.Machine

/-! ## Receive buffer (R138, R139, R141) -/

/-- Role of a receive queue (Table 5.7). -/
def State.queueRole (s : State) (k q : Nat) : Nat :=
  if q < 8 then s.fld (Pg.MAC k) Off.MAC_RXQ_MAP_LO (4 * q + 3) (4 * q)
  else s.fld (Pg.MAC k) Off.MAC_RXQ_MAP_HI (4 * (q - 8) + 3) (4 * (q - 8))

def State.rsvCells (s : State) (k q : Nat) : Nat := s.fld (Pg.MAC k) (Off.MAC_RXQ_CFG q) 11 0
def State.maxCells (s : State) (k q : Nat) : Nat := s.fld (Pg.MAC k) (Off.MAC_RXQ_CFG q) 27 16

/-- Cells set aside for the frame in reception of queue `q`. -/
def asideCells (p : PortState) (q : Nat) : Nat :=
  match p.rx with
  | some r => match r.admitted with
    | some (a, n) => if a = q then n else 0
    | none => 0
  | none => 0

/-- Frames admitted to queue `q`, the frame in reception included (Table 18.1). -/
def framesHeld (p : PortState) (q : Nat) : Nat :=
  (storeLook p.queues q []).length + if asideCells p q = 0 then 0 else 1

/-- Cells held by queue `q`, those set aside included. -/
def cellsHeld (p : PortState) (q : Nat) : Nat := sumBy RxFrame.cells (storeLook p.queues q []) + asideCells p q

/-- Free cells of the port, and free descriptors. -/
def freeCells (p : PortState) : Nat := 2048 - sumBy (cellsHeld p) (List.range 16)
def freeDesc (p : PortState) : Nat := 1024 - sumBy (framesHeld p) (List.range 16)

/-- Free cells of the port's shared pool. -/
def sharedCells (s : State) (k : Nat) : Nat :=
  let p := s.port k
  2048 - sumBy (fun q => max (s.rsvCells k q) (cellsHeld p q)) (List.range 16)

/-- The port can set `n` cells aside for queue `q`, and has a descriptor (R138). -/
def canAdmit (s : State) (k q n : Nat) : Bool :=
  let held := cellsHeld (s.port k) q
  decide (0 < freeDesc (s.port k)) && decide (n ≤ (s.rsvCells k q - held) + sharedCells s k) &&
    decide (held + n ≤ s.maxCells k q)

/-- A queue enters XOFF (R141): the flag is set; a control frame is due where its priority was not in XOFF before. A
release not yet sent is dropped, and the XOFF goes on as it was. -/
def xoffEnter (s : State) (k q : Nat) : State :=
  let bit := s.xoffBit k q
  let new := bit &&& ~~~ xoffNow s k
  let s := onPort s k fun p =>
    let withdrawn := new &&& p.due &&& p.told
    { p with xoff := setAdd p.xoff q, due := (p.due ||| new) &&& ~~~ withdrawn }
  startTx (setFlag s (Pg.MAC k) 5) k

/-- A queue leaves XOFF (R141): a control frame is due where no other queue keeps its priority in XOFF. -/
def xoffLeave (s : State) (k q : Nat) : State :=
  let bit := s.xoffBit k q
  let s := onPort s k fun p => { p with xoff := setDel p.xoff q }
  startTx (onPort s k fun p => { p with due := p.due ||| (bit &&& ~~~ xoffNow s k) }) k

/-- R141: enter or leave XOFF by the cells now held. -/
def xoffUpdate (s : State) (k q : Nat) : State :=
  let held := cellsHeld (s.port k) q
  let inXoff := (s.port k).xoff.contains q
  if !inXoff && decide (s.fld (Pg.MAC k) (Off.MAC_RXQ_FC q) 11 0 < held) then xoffEnter s k q
  else if inXoff && decide (held ≤ s.fld (Pg.MAC k) (Off.MAC_RXQ_FC q) 27 16) then xoffLeave s k q
  else s

/-! ## Stage 1 (Table 5.5) -/

/-- What the first 24 bytes of a frame say: tags, steering VID and PCP, EtherType, and the tenant of a Fratra header. -/
structure HeadInfo where
  da : BitVec 48
  tags : Nat
  outerTpid : Nat
  outerVid : Nat
  vid : Option Nat
  pcp : Option Nat
  etype : Nat
  tenant : Nat
  bad4095 : Bool
  deriving DecidableEq, Repr

/-- What the first bytes of a frame say, under S_TPID and QINQ_EN. While QINQ_EN is 0 the VID of a lone S-tag is ignored
(R125). -/
def readHead (sTpid : Nat) (qinq : Bool) (h : List Byte) : HeadInfo :=
  let n := tagCount sTpid h
  let outer := beNat ((h.drop 12).take 2)
  let ignored := n = 1 && !qinq && outer = sTpid
  let tci1 := beNat ((h.drop 14).take 2)
  let tci2 := beNat ((h.drop 18).take 2)
  let inner := if n = 2 then tci2 else tci1
  { da := macOf (h.take 6), tags := n
    outerTpid := if n = 0 then 0 else outer
    outerVid := tci1 % 4096
    vid := if n = 0 ∨ inner % 4096 = 0 ∨ ignored then none else some (inner % 4096)
    pcp := if n = 0 then none else some (inner / 8192)
    etype := beNat ((h.drop (12 + 4 * n)).take 2)
    tenant := ((h.drop (15 + 4 * n)).headD 0).toNat % 64
    bad4095 := n ≠ 0 && tci1 % 4096 = 4095 || n = 2 && tci2 % 4096 = 4095 }

/-- The head of a frame as port `k` reads it. -/
def State.readHead (s : State) (k : Nat) (h : List Byte) : HeadInfo := Sys2Proof.Machine.readHead (s.sTpid k) (s.qinq k) h

/-- The address in a UC or MC entry, when it is valid. -/
def addrEntry (s : State) (k lo hi : Nat) : Option (BitVec 48) :=
  if s.bit (Pg.MAC k) hi 31 then
    some (BitVec.ofNat 48 (s.fld (Pg.MAC k) hi 15 0 * 2 ^ 32 + (s.reg (Pg.MAC k) lo).toNat))
  else none

/-- The hash index of an address: C[11:0] of R134. -/
def hashIndex (da : BitVec 48) : Nat := (bitReverse (crc32 (macBytes da))).toNat % 4096

/-- Address acceptance (Table 5.6), and the PTP addresses of R133. -/
def addrAccepted (s : State) (k : Nat) (da : BitVec 48) : Bool :=
  let f := s.reg (Pg.MAC k) Off.MAC_FILT_CFG
  let ptp := (da = 0x011B19000000 || da = 0x0180C200000E) && s.bit Pg.TIME Off.TIME_PTP_CFG (12 + k)
  f.bit 0 || ptp ||
  (if da = 0xFFFFFFFFFFFF then f.bit 2
   else if da.getLsbD 40 then
     f.bit 1 || (f.bit 3 && s.bit (Pg.MAC k) (Off.MAC_HASH (hashIndex da / 32)) (hashIndex da % 32)) ||
       (List.range 32).any fun n => addrEntry s k (Off.MAC_MC_LO n) (Off.MAC_MC_HI n) = some da
   else
     da = s.portMac k ||
       (List.range 32).any fun n => addrEntry s k (Off.MAC_UC_LO n) (Off.MAC_UC_HI n) = some da)

/-- The filter stage passes the frame (R124, R125, R133). -/
def filterPass (s : State) (k : Nat) (i : HeadInfo) : Bool :=
  !i.bad4095 &&
  (!s.qinq k || (i.tags ≠ 0 && i.outerTpid = s.sTpid k && i.outerVid = s.fld (Pg.MAC k) Off.MAC_TAG_CFG 11 0)) &&
  addrAccepted s k i.da

/-- A steering entry matches (R135). -/
def steMatch (s : State) (k n : Nat) (i : HeadInfo) : Bool :=
  let w := s.reg Pg.STEER (Off.STEER_STE_W0 n)
  let v := s.reg Pg.STEER (Off.STEER_STE_W1 n)
  w.bit 31 && w.bit (20 + k) &&
  (!w.bit 15 || i.vid = some (w.fld 11 0)) &&
  (!w.bit 16 || i.pcp = some (w.fld 14 12)) &&
  (!w.bit 17 || i.etype = v.fld 15 0) &&
  (!w.bit 18 || (i.etype = s.fld Pg.STEER Off.STEER_STEER_CFG 15 0 && i.tenant = v.fld 21 16))

/-- The queue that steering gives, or none when no entry matches (R135). -/
def steerQueue (s : State) (k : Nat) (i : HeadInfo) : Option Nat :=
  ((List.range 256).find? fun n => steMatch s k n i).map fun n => s.fld Pg.STEER (Off.STEER_STE_W0 n) 27 24

/-- MAC control (R132): 1 PAUSE, 2 PFC, 3 any other opcode, 0 an ordinary frame. -/
def ctlKind (s : State) (k : Nat) (i : HeadInfo) (h : List Byte) : Nat :=
  if i.etype = 0x8808 && (i.da = 0x0180C2000001 || i.da = s.portMac k) then
    let op := beNat ((h.drop (14 + 4 * i.tags)).take 2)
    if op = 0x0001 then 1 else if op = 0x0101 then 2 else 3
  else 0

/-- N of R138, for the port's MAXFRM. -/
def asideN (s : State) (k : Nat) : Nat := ceilDiv (s.maxFrm k + 8) 256

/-- The receiver takes frames: the port is enabled, linked, and in RUN (R9, R121, R147). -/
def State.receiving (s : State) (k : Nat) : Bool := s.portUp k && s.inRun

/-- Stage 1 of a frame's reception (Table 5.5). -/
def doRxFrameStart (s : State) (k : Nat) (head : List Byte) : State :=
  if !s.receiving k || (s.port k).rx.isSome then s
  else
    let i := s.readHead k head
    let stamp := s.ft.ns - s.fld (Pg.MAC k) Off.MAC_PORT_LAT 15 0
    let base : RxPending :=
      { head := head, stamp := stamp, allowance := s.maxFrm k + 4 * i.tags, ctl := 0, filtered := false
        discard := false, admitted := none }
    if head.length < 14 then onPort s k fun p => { p with rx := some { base with filtered := true } }
    else
      let ctl := ctlKind s k i head
      if ctl ≠ 0 then onPort s k fun p => { p with rx := some { base with ctl := ctl } }
      else if !filterPass s k i then onPort s k fun p => { p with rx := some { base with filtered := true } }
      else
        let (s, q) := match steerQueue s k i with
          | some q => (s, q)
          | none => (bump s Pg.STEER 0x040, s.fld (Pg.MAC k) Off.MAC_DEFAULT_Q 3 0)
        if s.queueRole k q = 0 then onPort s k fun p => { p with rx := some { base with discard := true } }
        else if canAdmit s k q (asideN s k) then
          xoffUpdate (onPort s k fun p => { p with rx := some { base with admitted := some (q, asideN s k) } }) k q
        else onPort s k fun p => { p with rx := some base }

/-! ## Flow control received (R140) -/

/-- Honour a received PAUSE: every class stops, or is released by time 0. -/
def honourPause (s : State) (k time : Nat) : State :=
  if s.bit (Pg.MAC k) Off.MAC_FC_CFG 2 && s.fld (Pg.MAC k) Off.MAC_FC_CFG 1 0 = 1 && s.receiving k then
    startTx (onPort s k fun p => { p with paused := decide (time ≠ 0) }) k
  else s

/-- Honour a received PFC: each priority enabled in the frame and in PFC_RX_EN takes its time. -/
def honourPfc (s : State) (k : Nat) (classes : BitVec 8) (times : List Nat) : State :=
  if s.bit (Pg.MAC k) Off.MAC_FC_CFG 2 && s.fld (Pg.MAC k) Off.MAC_FC_CFG 1 0 = 2 && s.receiving k then
    let en := classes &&& BitVec.ofNat 8 (s.fld (Pg.MAC k) Off.MAC_FC_CFG 15 8)
    let on := (List.range 8).foldl
      (fun m p => if en.getLsbD p && decide (times.getD p 0 ≠ 0) then m ||| BitVec.ofNat 8 (2 ^ p) else m)
      (0 : BitVec 8)
    startTx (onPort s k fun p => { p with pfcPaused := (p.pfcPaused &&& ~~~ en) ||| on }) k
  else s

/-- A received PAUSE frame is consumed, counted, and honoured (R132, R140). -/
def doPause (s : State) (k time : Nat) : State :=
  if s.receiving k then honourPause (bump s (Pg.MAC k) 0x090) k time else s

/-- A received PFC frame is consumed, counted, and honoured (R132, R140). -/
def doPfc (s : State) (k : Nat) (classes : BitVec 8) (times : List Nat) : State :=
  if s.receiving k then honourPfc (bump s (Pg.MAC k) 0x098) k classes times else s

/-! ## Frame end (Tables 5.2 and 5.4) -/

/-- Release a frame to a queue. The PTP and MGMT consumers, the HKP's, take a frame with its stamp as it is released
(DESIGN CHOICE, log 10); the Fratra engine takes its frames at ARRIVAL. -/
def releaseFrame (s : State) (k q : Nat) (f : RxFrame) : State :=
  let s :=
    if s.queueRole k q ≤ 3 then
      let f := { f with order := s.fratra.nextOrder }
      let s := { s with fratra := { s.fratra with nextOrder := s.fratra.nextOrder + 1 } }
      onPort s k fun p => { p with queues := storePut p.queues q [] (storeLook p.queues q [] ++ [f]) }
    else onPort s k fun p => { p with toHkp := some (q, f) }
  xoffUpdate s k q

/-- A TC0 Fratra frame addressed to one of the twin's ports, which is relayed (R346). -/
def relayed (s : State) (k q : Nat) (i : HeadInfo) : Bool :=
  decide (1 ≤ s.queueRole k q ∧ s.queueRole k q ≤ 3) && i.etype = s.fld Pg.STEER Off.STEER_STEER_CFG 15 0 &&
    i.tenant = 0 && s.acd.twinMacs.contains i.da && (s.acd.pair = .paired || s.acd.pair = .catchup)

/-- A frame without error fate (orders 6 to 11 of Table 5.4). -/
def rxGood (s : State) (k : Nat) (r : RxPending) (bs : List Byte) (len : Nat) : State :=
  let i := s.readHead k r.head
  let body := bs.drop (14 + 4 * i.tags)
  match r.ctl with
  | 1 => doPause s k (beNat ((body.drop 2).take 2))
  | 2 =>
    doPfc s k (BitVec.ofNat 8 (beNat ((body.drop 2).take 2)))
      ((List.range 8).map fun p => beNat ((body.drop (4 + 2 * p)).take 2))
  | 3 => bump s (Pg.MAC k) 0x0A0
  | _ =>
    if r.filtered then bump s (Pg.MAC k) 0x0A0
    else if r.discard then bump s (Pg.MAC k) 0x0A8
    else
      match r.admitted with
      | none => setFlag (bump s (Pg.MAC k) 0x0B0) (Pg.MAC k) 2
      | some (q, _) =>
        let s := bump (bumpBy s (Pg.MAC k) 0x048 len) (Pg.MAC k) 0x040
        let s := bump s (Pg.MAC k) (if i.da = 0xFFFFFFFFFFFF then 0x060 else if i.da.getLsbD 40 then 0x058 else 0x050)
        let keep := s.bit (Pg.MAC k) Off.MAC_FRAME_CFG 17 && decide (3 < s.queueRole k q)
        let stored := if keep then bs else bs.take (len - 4)
        if relayed s k q i then
          let c : Carriage :=
            { kind := 2, port := k, src := macOf ((bs.drop 6).take 6), dst := i.da, vid := i.vid.getD 0 }
          let s := bump s Pg.ACD 0x0A0
          xoffUpdate (onAcd s fun a => { a with out := a.out ++ [.relay c (stored.drop (14 + 4 * i.tags))] }) k q
        else releaseFrame s k q { bytes := stored, stamp := r.stamp, cells := ceilDiv stored.length 256 }

/-- A bad frame that DELIVER_BAD delivers (R128, R129, R137). DESIGN CHOICE (log 119): the room in BAD_Q is judged at the
frame's end, by the cells that its stored bytes take. -/
def rxBad (s : State) (k : Nat) (r : RxPending) (bs : List Byte) (flags : BitVec 4) : State :=
  let q := s.fld (Pg.MAC k) Off.MAC_FRAME_CFG 23 20
  let kept := bs.take r.allowance
  let stored := if flags.getLsbD 1 || s.bit (Pg.MAC k) Off.MAC_FRAME_CFG 17 then kept else kept.take (kept.length - 4)
  let cells := ceilDiv stored.length 256
  if s.bit (Pg.MAC k) Off.MAC_FRAME_CFG 16 && s.queueRole k q ≠ 0 && canAdmit s k q cells then
    releaseFrame s k q { bytes := stored, stamp := r.stamp, cells := cells, flags := flags }
  else s

/-- The FCS of a frame of 14 bytes or more does not match (R128). -/
def fcsBad (bs : List Byte) : Bool :=
  decide (14 ≤ bs.length) && decide ((bs.drop (bs.length - 4)) ≠ leBytes32 (crc32 (bs.take (bs.length - 4))))

/-- The flags of a bad frame: every one that applies (R128). -/
def badFlags (r : RxPending) (bs : List Byte) (codeErr : Bool) : BitVec 4 :=
  BitVec.ofNat 4 (b2n (decide (bs.length < 64)) 1 + b2n (decide (r.allowance < bs.length)) 2 + b2n codeErr 4 +
    b2n (fcsBad bs) 8)

/-- A received frame ends (R126 to R131). `rest` is what followed its first 24 bytes, FCS included. -/
def doRxFrameEnd (s : State) (k : Nat) (rest : List Byte) (codeErr : Bool) : State :=
  match (s.port k).rx with
  | none => s
  | some r =>
    let s := onPort s k fun p => { p with rx := none, toHkp := none }
    let bs := r.head ++ rest
    let len := bs.length
    let flags := badFlags r bs codeErr
    let s :=
      if 16383 < len then bump s (Pg.MAC k) 0x078
      else if len < 64 then
        let s := bump s (Pg.MAC k) 0x068
        if len < 14 then s else rxBad s k r bs flags
      else if r.allowance < len then rxBad (bump s (Pg.MAC k) 0x070) k r bs flags
      else if codeErr then rxBad (bump s (Pg.MAC k) 0x080) k r bs flags
      else if fcsBad bs then rxBad (bump s (Pg.MAC k) 0x088) k r bs flags
      else rxGood s k r bs len
    match r.admitted with
    | some (q, _) => xoffUpdate s k q
    | none => s

/-- FEC codewords that a port has decoded since the last report: corrected, and not corrected (R146). -/
def countFec (s : State) (k corr uncorr : Nat) : State :=
  if !s.receiving k || s.fld (Pg.MAC k) Off.MAC_PORT_CFG 5 4 = 0 then s
  else
    let s := bumpBy s (Pg.MAC k) 0x0E8 corr
    if uncorr = 0 then s else setFlag (bumpBy s (Pg.MAC k) 0x0F0 uncorr) (Pg.MAC k) 6

/-! ## Links (R122, R123) -/

/-- Transmit discards of a port: each queued frame and the frame in transmission, counted in TX_DROP. -/
def dropTx (s : State) (k : Nat) : State :=
  let p := s.port k
  let n := p.tx.length + if p.cur.isSome then 1 else 0
  let s := bumpBy (onPort s k fun p => { p with tx := [], cur := none, due := 0, told := 0 }) (Pg.MAC k) 0x0E0 n
  if n = 0 then s else setFlag s (Pg.MAC k) 8

/-- The mode negotiates: USXGMII and 1000BASE-X with AN_EN, SGMII always (Table 5.1, R122). -/
def State.negotiates (s : State) (k : Nat) : Bool :=
  let an := s.bit (Pg.MAC k) Off.MAC_PORT_CFG 10
  s.portMode k = 3 && an || s.portMode k = 4 || s.portMode k = 5 && an

/-- The speed of a link in the port's mode, by its PORT_STAT code: that of the mode, the one fixed by USX_SPEED, or the one
that the PHY reports, none where the mode has no such rate (Table 5.1, R122). -/
def linkSpeed (s : State) (k reported : Nat) : Option Nat :=
  match s.portMode k with
  | 1 => some 7
  | 2 => some 6
  | 3 =>
    if s.bit (Pg.MAC k) Off.MAC_PORT_CFG 10 then (if 3 ≤ reported ∧ reported ≤ 6 then some reported else none)
    else some (6 - s.fld (Pg.MAC k) Off.MAC_PORT_CFG 9 8)
  | 4 => if 1 ≤ reported ∧ reported ≤ 3 then some reported else none
  | 5 => some 3
  | _ => none

/-- The Clause 37 page that a port advertises in 1000BASE-X with AN_EN (R122): full duplex, PAUSE with FC_MODE 1, never
half duplex. PRESUMED (log 120): the bits are those of IEEE 802.3 Clause 37. -/
def clause37 (s : State) (k : Nat) : Option (BitVec 16) :=
  if s.portMode k = 5 && s.negotiates k && s.en (Pg.MAC k) && s.inRun then
    some (if s.fcMode k = 1 then 0x00A0 else 0x0020)
  else none

/-- LINK_UP. A report of a speed that the mode does not have is no such event (log 2). -/
def doLinkUp (s : State) (k : Nat) (info : LinkInfo) : State :=
  if 4 ≤ k ∨ !s.en (Pg.MAC k) ∨ !s.inRun ∨ (s.port k).link then s
  else
    match linkSpeed s k info.speed with
    | none => s
    | some v =>
      if s.portMode k = 4 && info.halfDuplex then setFlag s (Pg.MAC k) 7
      else
        let s := onPort s k fun p =>
          { p with link := true, anDone := info.anDone && s.negotiates k, speed := v
                   fecLock := info.fecLock && decide (s.fld (Pg.MAC k) Off.MAC_PORT_CFG 5 4 ≠ 0)
                   localFault := false, remoteFault := false }
        setFlag s (Pg.MAC k) 0

/-- The frame in reception at link down: RX_CODE_ERR counts it, and DELIVER_BAD delivers it cut, with CODE_ERR (R123,
R128). `received` is what had followed its first 24 bytes. -/
def cutRx (s : State) (k : Nat) (received : List Byte) : State :=
  match (s.port k).rx with
  | none => s
  | some r =>
    let s := bump (onPort s k fun p => { p with rx := none }) (Pg.MAC k) 0x080
    let bs := r.head ++ received
    let s := if bs.length < 14 ∨ 16383 < bs.length then s else rxBad s k r bs (badFlags r bs true)
    match r.admitted with
    | some (q, _) => xoffUpdate s k q
    | none => s

/-- LINK_DOWN (R123). DESIGN CHOICE (log 121): a received PAUSE or PFC stop ends with the link. -/
def doLinkDown (s : State) (k : Nat) (fault : LinkFault) (received : List Byte) : State :=
  if !(s.port k).link then s
  else
    let s := cutRx (bump s (Pg.MAC k) 0x0F8) k received
    let s := onPort s k fun p =>
      { p with link := false, anDone := false, speed := 0, fecLock := false, localFault := fault.localFault
               remoteFault := fault.remoteFault, paused := false, pfcPaused := 0 }
    setFlag (dropTx s k) (Pg.MAC k) 1

/-! ## Flow control commands -/

/-- A stop of a transmit class ends (R140): the whole PAUSE stop, or one priority's. -/
def doPauseExpire (s : State) (k : Nat) (prio : Option Nat) : State :=
  match prio with
  | none => startTx (onPort s k fun p => { p with paused := false }) k
  | some p => startTx (onPort s k fun t => { t with pfcPaused := t.pfcPaused &&& ~~~ BitVec.ofNat 8 (2 ^ p) }) k

/-- Half of PAUSE_QUANTA has elapsed with a queue in XOFF: what is in XOFF is due again (R141). -/
def doPauseRefresh (s : State) (k : Nat) : State :=
  startTx (onPort s k fun p => { p with due := p.due ||| xoffNow s k }) k

/-! ## Transmission (R130, R142 to R144) -/

/-- A two-step stamp goes into the FIFO of 4, or is lost (R144). -/
def pushTxTs (s : State) (k : Nat) (f : TxFrame) (ns : Nat) : State :=
  match f.stamp, ptpEvent s k f.bytes with
  | .twoStep, some body =>
    if (s.port k).tsFifo.length < 4 then
      onPort s k fun p =>
        { p with tsFifo := p.tsFifo ++ [{ ns := ns, msgType := (body.headD 0).toNat % 16
                                          seqId := beNat ((body.drop 30).take 2)
                                          domain := ((body.drop 4).headD 0).toNat }] }
    else internalErr (setFlag s (Pg.MAC k) 4) (Pg.MAC k) 0x40
  | _, _ => s

/-- The stamp that an offered frame asks for. -/
def offerStamp (o : TxOffer) : TxStamp :=
  match o.stamp with
  | 1 => .twoStep
  | 2 => .oneStepSync
  | 3 => .oneStepPdelay o.rxNs
  | _ => .none

/-- A frame of the HKP's PTP or management path is queued, or discarded under R130. -/
def offerTx (k : Nat) (s : State) (o : TxOffer) : State :=
  let f : TxFrame :=
    { cls := if o.ptp then 3 else 4, bytes := o.bytes, fcsPass := o.fcsPass, stamp := offerStamp o }
  sendTx s k f

/-- A transmitted frame ends (R142, R143): it is counted, its stamp is returned or queued, the HKP's frames are taken,
and the next frame is picked. -/
def doTxFrameDone (s : State) (k : Nat) (offered : List TxOffer) : State :=
  let s := match (s.port k).cur with
    | none => s
    | some c =>
      let s := onPort s k fun p => { p with cur := none, sent := some c }
      let s := bump (bumpBy s (Pg.MAC k) 0x0C8 c.length) (Pg.MAC k) 0x0C0
      if c.ctl = 1 then bump s (Pg.MAC k) 0x0D0
      else if c.ctl = 2 then bump s (Pg.MAC k) 0x0D8
      else pushTxTs s k c.frame c.startNs
  startTx (overList (offerTx k) offered s) k

/-! ## The port snapshot (R148, R150) -/

/-- The blocks whose RW fields the snapshot keeps: MAC and STEER, and the pages that save with them (R209, R265 to R267,
R296, R297). -/
def snapBlocks : List (Nat × Nat × Nat) :=
  ((List.range 4).map fun k => (Pg.MAC k, 0x100, 0xFFF)) ++ [(Pg.STEER, 0x100, 0xFFF), (Pg.KVX, 0x120, 0x127),
    (Pg.ACD, 0x100, 0x137), (Pg.FTL, 0x100, 0x11F), (Pg.ECC, 0x100, 0x10F), (Pg.HLTH, 0x100, 0x10F), (Pg.DRAM, 0x104, 0x107)] ++
  ((List.range 16).map fun c => (Pg.NCH c, 0x100, 0x103))

/-- The page is one whose IRQ_EN, IRQ_ROUTE and PAGE_OWNER the snapshot keeps (R148). -/
def snapCommon (page : Nat) : Bool := decide (0x010 ≤ page ∧ page ≤ 0x014)

/-- A register address is part of the snapshot. -/
def snapHolds (a : Nat) : Bool :=
  (snapBlocks.any fun b => decide (b.1 = pageOf a ∧ b.2.1 ≤ offOf a ∧ offOf a ≤ b.2.2)) ||
    (snapCommon (pageOf a) && (offOf a = Off.IRQ_EN || offOf a = Off.IRQ_ROUTE || offOf a = Off.PAGE_OWNER))

/-- The writable part of a register at an address, LOCK left out (R148). -/
def snapValue (s : State) (a : Nat) : Word :=
  match blockOf (pageOf a) with
  | none => 0
  | some b => match rowAt b (offOf a) with
    | none => 0
    | some (r, _) =>
      let w := s.reg (pageOf a) (offOf a) &&& accMask .rw r
      if offOf a = Off.PAGE_OWNER then w &&& ~~~ Word.mask 15 15 else w

/-- The snapshot of the registers as they stand: those that do not hold their reset value. -/
def takeSnapshot (s : State) : Store Word :=
  (s.regs.filter fun e => snapHolds e.1).map fun e => (e.1, snapValue s e.1)

/-- Write a snapshot into the pages (R148): a register it does not list holds its reset value. -/
def restoreSnapshot (s : State) : State :=
  match s.snap.saved with
  | none => s
  | some m =>
    let s := m.foldl (fun s e =>
      let keep := s.reg (pageOf e.1) (offOf e.1)
      let rw := match blockOf (pageOf e.1) with
        | some b => match rowAt b (offOf e.1) with
          | some (r, _) => accMask .rw r
          | none => 0
        | none => 0
      setReg s (pageOf e.1) (offOf e.1) ((keep &&& ~~~ rw) ||| (e.2 &&& rw))) s
    gleanCfgApply { s with snap := { s.snap with restored := true } }

/-- SAVE (R148): start journaling the snapshot; the caller has judged SAVE_BUSY. -/
def startSave (s : State) : State := { s with snap := { s.snap with saving := some (takeSnapshot s) } }

/-- The snapshot is journaled, or cannot be (R148, R150). -/
def doSaveDone (s : State) (journaled : Bool) : State :=
  match s.snap.saving with
  | none => s
  | some m =>
    if journaled then
      setFlag { s with snap := { s.snap with saved := some m, saving := none, seq := (s.snap.seq + 1) % 65536 } }
        Pg.STEER 0
    else internalErr { s with snap := { s.snap with saving := none } } Pg.STEER 0x40

/-! ## Register rules of MAC and STEER (R121, R126, R137, R139, R141, R149, R150) -/

/-- FEC choices of a mode (Table 5.1). -/
def fecAllowed (mode fec : Nat) : Bool :=
  match mode with
  | 1 => decide (fec ≤ 2)
  | 2 => decide (fec = 0 ∨ fec = 2)
  | _ => decide (fec = 0)

/-- The page code of a MAC write, 0 when it is allowed. `w` is the value the register would hold. -/
def macCheck (s : State) (k off : Nat) (old w : Word) : Nat :=
  let pg := Pg.MAC k
  if off = Off.MAC_PORT_CFG then
    if s.en pg && old &&& 0x43F ≠ w &&& 0x43F then 0x01
    else if 5 < w.fld 3 0 ∨ !fecAllowed (w.fld 3 0) (w.fld 5 4) then 0x02
    else 0
  else if off = Off.MAC_FRAME_CFG then
    if w.fld 13 0 < 1518 ∨ 9600 < w.fld 13 0 then 0x03
    else if s.queueRole k (w.fld 23 20) ≠ 0 ∧ s.queueRole k (w.fld 23 20) ≠ 5 then 0x04
    else if w.bit 19 && decide (s.fld pg Off.MAC_TAG_CFG 11 0 = 0 ∨ s.fld pg Off.MAC_TAG_CFG 11 0 = 4095) then 0x05
    else 0
  else if off = Off.MAC_TAG_CFG then
    if s.qinq k && decide (w.fld 11 0 = 0 ∨ w.fld 11 0 = 4095) then 0x05 else 0
  else if off = Off.MAC_RXQ_MAP_LO ∨ off = Off.MAC_RXQ_MAP_HI then
    let badQ := s.fld pg Off.MAC_FRAME_CFG 23 20
    let base := if off = Off.MAC_RXQ_MAP_LO then 0 else 8
    let role := if base ≤ badQ ∧ badQ < base + 8 then w.fld (4 * (badQ - base) + 3) (4 * (badQ - base))
      else s.queueRole k badQ
    if (List.range 8).any fun i => decide (5 < w.fld (4 * i + 3) (4 * i)) then 0x02
    else if role ≠ 0 ∧ role ≠ 5 then 0x04
    else 0
  else if 0x140 ≤ off ∧ off < 0x1C0 then
    let q := (off - 0x140) / 8
    let cfg := if off % 8 = 0 then w else s.reg pg (Off.MAC_RXQ_CFG q)
    let fc := if off % 8 = 0 then s.reg pg (Off.MAC_RXQ_FC q) else w
    let rsv := sumBy (fun r => if r = q then cfg.fld 11 0 else s.rsvCells k r) (List.range 16)
    if 2048 < rsv ∨ cfg.fld 27 16 = 0 ∨ fc.fld 11 0 ≤ fc.fld 27 16 ∨
        cfg.fld 27 16 < fc.fld 11 0 then 0x05
    else 0
  else 0

/-- The page code of a STEER write (R148, R150). -/
def steerCheck (s : State) (off : Nat) (w : Word) : Nat :=
  if off = Off.STEER_STEER_CFG then
    let e := w.fld 15 0
    if e < 0x0600 ∨ e = 0x8100 ∨ e = 0x8808 ∨ e = 0x88A8 ∨ e = 0x88F7 ∨
        e = s.fld Pg.ACD Off.ACD_HB_ETYPE 15 0 then 0x01 else 0
  else if off = Off.STEER_CFG_CMD then if w.bit 0 && s.snap.saving.isSome then 0x02 else 0
  else 0

/-- What clearing PAGE_CTRL EN of a MAC page does (R121): the transmitter sends nothing, and queued frames are counted in
TX_DROP; the frame in reception is discarded uncounted. -/
def macDisable (s : State) (k : Nat) : State :=
  let q := match (s.port k).rx with
    | some r => r.admitted.map Prod.fst
    | none => none
  let s := onPort s k fun p => { p with rx := none, paused := false, pfcPaused := 0 }
  let s := match q with
    | some q => xoffUpdate s k q
    | none => s
  dropTx s k

end Sys2Proof.Machine
end

