-- ==== Sys2Proof/Machine/Stage.lean ====
section
/-! DEFINITION. Machine/Stage.lean: staged swaps: the hardware pool of the Timed Action Table they take, their records, and
what the twin is told of them (R49, R194, R196, R343). -/

namespace Sys2Proof.Machine

/-- Free hardware-pool entries of the Timed Action Table (R49): those from POOL_BASE up that are not ARMED. -/
def poolEntries (s : State) : List Nat :=
  (List.range 256).filter fun e =>
    decide (s.fld Pg.TAT Off.TAT_TAT_CFG 15 8 ≤ e) && decide ((storeLook s.tat.entries e {}).status ≠ .armed)

/-- The follower has room for one more stage (R343). -/
def twinHasPool (s : State) (n : Nat) : Bool :=
  !(s.mirrored n && (s.acd.pair = .paired || s.acd.pair = .catchup) && s.leads n) ||
    decide (s.acd.stagesOut.length < s.acd.poolFree)

def setEntry (s : State) (i : Nat) (e : TatEntry) : State :=
  { s with tat := { s.tat with entries := storePut s.tat.entries i {} e } }
def State.entry (s : State) (i : Nat) : TatEntry := storeLook s.tat.entries i {}

/-- The pool entry of a staged swap (R194 step 2). -/
def swapEntry (n ident ns : Nat) (skipLate : Bool) : TatEntry :=
  { t := ns, kind := 2, argLo := BitVec.ofNat 32 ident, argHi := BitVec.ofNat 32 n, actAs := n, persist := true
    skipLate := skipLate, status := .armed }

/-- The identifier after `n`, which skips 0. -/
def nextIdent (n : Nat) : Nat := if (n + 1) % 65536 = 0 then 1 else (n + 1) % 65536

/-- The mirrored form of a swap's commit (`version` its commit version) or discard (version 0): TIMED, no value
(Table 12.8). -/
def timedOp (w : Swap) (version : Nat) : MirrorOp :=
  { opcode := 0x21, key := w.aliasKey, version := version, options := 64, value := [], offset := w.ident
    swap := some (w.ns, w.ident, w.entry.getD 0) }

/-- Tell the follower of a swap's commit or discard; apart from the pair, a commit enters the divergence set. -/
def tellSwap (s : State) (w : Swap) (version : Nat) : State :=
  match s.beyond w.tenant with
  | .mirror => tellTwin s w.tenant (timedOp w version) none []
  | .diverge => if version = 0 then s else recordDiv s w.tenant w.aliasKey version s.acd.epoch false []
  | .nothing => s

/-- Remove a swap's record. -/
def dropSwap (s : State) (w : Swap) : State :=
  { s with fratra := { s.fratra with swaps := s.fratra.swaps.erase w } }

/-- The staged swap of a tenant with an identifier. -/
def findSwap (s : State) (n ident : Nat) : Option Swap :=
  s.fratra.swaps.find? fun w => decide (w.tenant = n ∧ w.ident = ident)

/-- Stage a swap in the lowest free pool entry under the next identifier, and mirror the stage (R194, R343). `waiting` is the
operation that waits for the twin. The answer is the VERSION of R194 step 4. -/
def stageSwap (s : State) (w : Swap) (waiting : Option Nat) (carr : Carriage) : Nat × State :=
  match poolEntries s with
  | [] => (0, s)
  | p :: _ =>
    let w := { w with ident := s.fratra.nextSwap, entry := some p }
    let q := storeLook s.acd.mseqNext w.tenant 0
    let t := setEntry { s with fratra := { s.fratra with
        swaps := s.fratra.swaps ++ [w], nextSwap := nextIdent w.ident } } p (swapEntry w.tenant w.ident w.ns w.skipLate)
    let t := if s.beyond w.tenant = .mirror then
        onAcd t fun a => { a with stagesOut := a.stagesOut ++ [(w.tenant, q)] }
      else t
    (p * 65536 + w.ident, tellTwin t w.tenant
      { opcode := 0x21, key := w.aliasKey, version := 0, options := BitVec.ofNat 32 (if w.skipLate then 16 else 0)
        value := w.target, swap := some (w.ns, w.ident, p), carriage := carr } waiting [])

/-- Withdraw a stage whose operation ends without OK (R170): its record and its pool entry, on both twins. -/
def withdrawSwap (s : State) (n version : Nat) : State :=
  match findSwap s n (version % 65536) with
  | none => s
  | some w => setEntry (tellSwap (dropSwap s w) w 0) (version / 65536) {}

end Sys2Proof.Machine
end

