-- ==== Sys2Proof/Machine/Fratra.lean ====
section
/-! DEFINITION. Machine/Fratra.lean: Fratra frames on arrival (R153 to R170), streams and their window (R172 to R178),
op tags (R203), admission (R188, R199, R218, R339), responses and their cache (R175), and the ingress (R180, R220). -/

namespace Sys2Proof.Machine

/-! ## Status codes (Table 6.9) -/

namespace St
def OK := 0
def NOT_FOUND := 1
def EXISTS := 2
def VERSION_MISMATCH := 3
def TOO_LARGE := 4
def QUOTA_FULL := 5
def BUSY := 6
def ABORTED := 7
def AUTH_FAIL := 8
def MALFORMED := 9
def UNSUPPORTED := 10
def VALUE_LOST := 11
def HEALING := 12
def FENCED := 13
def HELD := 14
def LATE := 15
def OUT_OF_WINDOW := 16
end St

/-! ## Parsing (R154 to R159) -/

/-- A request as its bytes declare it. -/
structure Request where
  ver : Nat
  resp : Bool
  frag : Bool
  last : Bool
  auth : Bool
  tenant : Nat
  opcode : Nat
  optag : Nat
  stream : Nat
  /-- byte 7 [7:6], 0 in requests, and BURST -/
  top : Nat
  burst : Nat
  seq : Word
  options : Word
  version : Nat
  offset : Nat
  total : Nat
  key : List Byte
  /-- SEC, NS and bytes 10, 11 of the FT extension -/
  ext : Option (Nat × Nat × Nat)
  value : List Byte
  tag : List Byte
  /-- what the tag covers after the pseudo-header -/
  covered : List Byte
  /-- the part holds the items its header declares -/
  whole : Bool
  deriving DecidableEq, Repr

/-- The opcodes whose requests bear value (Table 6.5). -/
def bearsValue (op : Nat) : Bool := [0x10, 0x11, 0x12, 0x13, 0x20, 0x21, 0x70, 0x71].contains op

/-- Read a Fratra part (Tables 6.1, 6.2, 6.4; R159). -/
def parseRequest (p : List Byte) : Request :=
  let at_ (o n : Nat) : Nat := beNat ((p.drop o).take n)
  let b0 := at_ 0 1
  let keyLen := at_ 3 1
  let options : Word := BitVec.ofNat 32 (at_ 12 4)
  let ext := b2n (options.bit 0) 12
  let auth := b0 % 2 = 1
  let last := b0 / 2 % 2 = 1
  let op := at_ 2 1
  let total := at_ 28 4
  let offset := at_ 24 4
  let len := if !bearsValue op then 0
    else if last then total - offset
    else p.length - 32 - keyLen - ext - b2n auth 16
  let eAt := 32 + keyLen
  let vAt := eAt + ext
  { ver := b0 / 16, resp := b0 / 8 % 2 = 1, frag := b0 / 4 % 2 = 1, last := last, auth := auth
    tenant := at_ 1 1 % 64, opcode := op, optag := at_ 4 2, stream := at_ 6 1
    top := at_ 7 1 / 64, burst := at_ 7 1 % 64, seq := BitVec.ofNat 32 (at_ 8 4), options := options
    version := at_ 16 8, offset := offset, total := total
    key := (p.drop 32).take keyLen
    ext := if ext = 0 then none else some (at_ eAt 6, at_ (eAt + 6) 4, at_ (eAt + 10) 2)
    value := (p.drop vAt).take len
    tag := if auth then (p.drop (vAt + len)).take 16 else []
    covered := p.take (vAt + len)
    whole := decide (vAt + len + b2n auth 16 ≤ p.length) }

/-- The opcodes of Table 6.5 that are defined. -/
def opDefined (op : Nat) : Bool :=
  [0x01, 0x02, 0x10, 0x11, 0x12, 0x13, 0x14, 0x15, 0x20, 0x21, 0x30, 0x31, 0x3F, 0x70, 0x71].contains op

/-- The OPTIONS bits an opcode may use (Table 6.3). -/
def optionMask (op : Nat) : Word :=
  let w : Word := if [0x10, 0x11, 0x12, 0x13, 0x14, 0x15, 0x20, 0x21].contains op then 4 else 0
  3 ||| w ||| (if op = 0x15 then 8 else 0) ||| (if op = 0x21 then 16 else 0)

/-- The fields of Table 6.5 hold, fragments apart. -/
def fieldsHold (r : Request) : Bool :=
  let k := r.key.length
  let max := 67108864
  match r.opcode with
  | 0x01 => k ≠ 0 && r.version = 0 && r.offset = 0 && r.total = 0
  | 0x02 => k ≠ 0 && r.version = 0 && r.total ≠ 0 && decide (r.total ≤ max)
  | 0x10 | 0x11 => k ≠ 0 && r.version = 0
  | 0x12 => k ≠ 0 && r.version = 0 && r.total ≠ 0
  | 0x13 => k ≠ 0
  | 0x14 => k ≠ 0 && r.offset = 0 && r.total = 0
  | 0x15 => k ≠ 0 && r.version = 0 && r.offset = 0 && r.total = 0
  | 0x20 => k ≠ 0 && r.version = 0 && r.offset = 0 && decide (1 ≤ r.total ∧ r.total ≤ 255)
  | 0x21 => k ≠ 0 && r.version = 0 && r.offset = 0 && decide (1 ≤ r.total ∧ r.total ≤ 255) && r.ext.isSome
  | 0x30 => r.offset = 0 && decide (r.total ≤ 16777216)
  | 0x31 => r.version = 0 && r.total = 0 && decide (r.offset ≤ 1) && (r.offset = 0 || k = 0)
  | 0x3F => k = 0 && r.version = 0 && r.offset = 0 && r.total = 0
  | 0x70 => k = 0 && r.version = 0 && r.offset = 0 && r.total % 8 = 0 && decide (8 ≤ r.total ∧ r.total ≤ 1024)
  | 0x71 => k = 0 && r.version = 0 && decide (1 ≤ r.total ∧ r.total ≤ 4096)
  | _ => false

/-- The opcodes that may set FRAG (R163). -/
def mayFragment (op : Nat) : Bool := [0x10, 0x11, 0x12, 0x13, 0x71].contains op

/-- The fragment rules that one frame shows by itself (R168). -/
def fragmentHolds (r : Request) : Bool :=
  if !r.frag then r.last && (r.offset = 0 || !bearsValue r.opcode)
  else
    mayFragment r.opcode &&
    (if r.last then r.offset ≠ 0 && decide (r.offset < r.total)
     else decide (64 ≤ r.value.length) && r.value.length % 64 = 0 && decide (r.offset + r.value.length ≤ r.total))

/-- The FT extension of a request holds what R158 allows. -/
def extHolds (e : Option (Nat × Nat × Nat)) : Bool :=
  match e with
  | some (_, ns, rest) => decide (ns ≤ 999999999) && rest = 0
  | none => true

/-- Steps 9 to 11 of Table 6.8: the status that answers the request, when one does. -/
def requestFault (r : Request) : Option Nat :=
  if !opDefined r.opcode then some St.UNSUPPORTED
  else if decide (0x70 ≤ r.opcode) && r.tenant ≠ 0 then some St.AUTH_FAIL
  else if r.top ≠ 0 || decide (r.options &&& ~~~ optionMask r.opcode ≠ 0) || !extHolds r.ext || !fieldsHold r ||
      !fragmentHolds r then some St.MALFORMED
  else if bearsValue r.opcode && decide (67108864 < r.total) then some St.TOO_LARGE
  else none

/-! ## Responses (R164, R175 to R178) -/

/-- WINDOW of a response that carries `seq` on a stream (R177). -/
def windowOf (s : State) (c : StreamCtx) (seq : Word) : Nat :=
  if streamHold s c.id.tenant then 0 else if seqLe seq c.limit then min 65535 (seqDist seq c.limit) else 0

/-- A request answered BUSY during a settle (R118). -/
def countSettleBusy (s : State) : State := if s.pwr.settle.isSome then bump s Pg.PWR 0x040 else s

/-- Answer a frame outside any operation (steps 4, 5 and 8 of Table 6.8, R173, R203, R228). -/
def answerFrame (s : State) (c : Carriage) (auth : Option (List Byte)) (r : Request) (status window version : Nat)
    (nostream : Bool) : State :=
  let s := if status = St.BUSY then countSettleBusy (bump (bump s Pg.FWP 0x080) (Pg.TEN r.tenant) 0x060)
    else if status = St.OUT_OF_WINDOW then bump s Pg.FWP 0x098 else s
  sendResp s c
    { tenant := r.tenant, opcode := r.opcode, optag := r.optag, stream := r.stream, seq := r.seq, status := status
      window := window, version := version, nostream := nostream, auth := auth
      ext := if r.ext.isSome then some (ftNow s) else none }

/-- Opcode and OPTAG of the operation that a SEQ of a stream belongs to. DESIGN CHOICE (log 126): 0 for one that belongs to
none, the SEQ before a stream's first. -/
def seqOp (s : State) (c : StreamCtx) (seq : Word) : Nat × Nat :=
  match (c.names.find? fun e => decide (e.1 = seq)).map Prod.snd with
  | none => (0, 0)
  | some k =>
    match storeFind s.fratra.ops k with
    | some o => (o.opcode, o.optag)
    | none =>
      match (c.finals.find? fun e => decide (e.1 = k)).map Prod.snd with
      | some f => (f.opcode, f.optag)
      | none => (0, 0)

/-- Send a progress response (R178) the way of carriage `carr`, tagged with `auth`: SEQ = N. The change of LIMIT it carries is
no longer owed. -/
def sendProgress (s : State) (i : StreamId) (carr : Carriage) (auth : Option (List Byte)) (dup : Bool) : State :=
  match (creditOne s i).findStream i with
  | none => s
  | some c =>
    let s := putStream (creditOne s i) { c with owed := false }
    let (opcode, optag) := seqOp s c c.n
    sendPart s carr i.tenant (buildPart s carr
      { tenant := i.tenant, opcode := opcode, optag := optag, stream := i.stream, seq := c.n, frag := true, last := false
        dup := dup, window := windowOf s c c.n, auth := auth
        ext := c.nStamp.map fun ns => ftBytes ns (modeNum s.ft.mode) s.ft.stepCount })

/-- Advance BASE over what is settled (R172). -/
def advanceBase : Nat → StreamCtx → StreamCtx
  | 0, c => c
  | fuel + 1, c =>
    if c.settled.contains c.base then
      advanceBase fuel { c with base := c.base + 1, settled := c.settled.filter (· ≠ c.base) }
    else c

/-- What leaves the cache range is forgotten. -/
def trimStream (c : StreamCtx) : StreamCtx :=
  let names := c.names.filter fun e => decide (seqDist (seqAdd c.base (2 ^ 32 - 1024)) e.1 < 2048)
  { c with names := names, finals := c.finals.filter fun f => names.any fun e => decide (e.2 = f.1) }

/-- Settle one SEQ (R172). -/
def settleSeq (c : StreamCtx) (seq : Word) : StreamCtx :=
  trimStream (advanceBase 1024 (if seqLe c.base seq then { c with settled := c.settled ++ [seq] } else c))

/-- Settle every SEQ of an operation whose final response is sent. -/
def settleOp (c : StreamCtx) (k : Nat) : StreamCtx :=
  ((c.names.filter fun e => decide (e.2 = k)).map Prod.fst).foldl settleSeq c

/-- The counters of a final response (Tables 7.7, 7.9, 8.6; ACD FENCED_RESP). -/
def countFinal (s : State) (n status : Nat) : State :=
  let s := if status = St.OK then bump (bump s Pg.FWP 0x070) (Pg.TEN n) 0x040
    else bump (bump s Pg.FWP 0x078) (Pg.TEN n) 0x048
  if status = St.BUSY then countSettleBusy (bump (bump s Pg.FWP 0x080) (Pg.TEN n) 0x060)
  else if status = St.ABORTED then bump (bump s Pg.FWP 0x088) (Pg.TEN n) 0x070
  else if status = St.QUOTA_FULL then bump s (Pg.TEN n) 0x068
  else if status = St.HEALING then bump s Pg.KVX 0x078
  else if status = St.VALUE_LOST then bump s Pg.KVX 0x080
  else if status = St.FENCED then bump s Pg.ACD 0x0A8
  else s

/-- Send a final response, put it into the cache, settle its SEQ and release the op tag (R172, R175, R203). -/
def sendFinal (s : State) (k : Nat) (o : OpState) (f : Cached) (value : List Byte) : State :=
  let n := o.id.tenant
  let s := { s with fratra := { s.fratra with ops := storeErase s.fratra.ops k } }
  let s := countFinal s n f.status
  let s := match s.findStream o.id with
    | none => s
    | some c =>
      creditOne (putStream s (settleOp { c with finals := c.finals ++ [(k, f)] } k)) o.id
  let w := match s.findStream o.id with
    | none => 0
    | some c => windowOf s c f.seq
  let s := match s.findStream o.id with
    | none => s
    | some c => putStream s { c with owed := false }
  let s := if value.isEmpty then s else
    dramMoved (bumpBy s (Pg.TEN n) 0x058 value.length) n value.length
  sendResp s o.carriage
    { tenant := n, opcode := f.opcode, optag := f.optag, stream := o.id.stream, seq := f.seq, status := f.status
      window := w, version := f.version, offset := f.offset, total := f.total, mirrored := f.mirrored
      ext := if f.showExt then some f.ext else none, value := value, auth := o.auth }

/-- What an operation is answered. DESIGN CHOICE (log 125): VERSION, OFFSET and TOTAL are 0 in a failure for which Table 6.6
names no value. -/
structure Answer where
  status : Nat
  version : Nat := 0
  offset : Nat := 0
  total : Nat := 0
  mirrored : Bool := false
  value : List Byte := []
  deriving DecidableEq, Repr

/-- The final response of an operation that is decided now by the frame at `seq`, with the Fleet Time of its completion (R16,
R158, R164, R169). -/
def finalAt (s : State) (o : OpState) (seq : Word) (a : Answer) : Cached :=
  { seq := seq, opcode := o.opcode, optag := o.optag, status := a.status, version := a.version, offset := a.offset
    total := a.total, mirrored := a.mirrored, ext := ftNow s
    showExt := o.ext.isSome }
def finalOf (s : State) (o : OpState) (a : Answer) : Cached := finalAt s o o.lastSeq a

/-- End an operation with its final response (R169, R203). -/
def finishOp (s : State) (k : Nat) (a : Answer) : State :=
  match storeFind s.fratra.ops k with
  | none => s
  | some o => sendFinal s k o (finalOf s o a) a.value

/-- Frames of an operation may still come: its last one, or one below it, has not. -/
def framesToCome (c : StreamCtx) (o : OpState) : Bool :=
  decide (o.phase = .assembling) && !o.pieces.any fun p => p.last && (p.offset = 0 || seqLe p.seq c.n)

/-- End an operation without OK by the frame at `seq`: its later frames are residue (R169), a stage it made is withdrawn
(R170). -/
def decideAt (s : State) (k status : Nat) (seq : Word) : State :=
  match storeFind s.fratra.ops k with
  | none => s
  | some o =>
    let s := match s.findStream o.id with
      | some c => if framesToCome c o then putStream s
          { c with residue := c.residue.filter (fun e => decide (e.1 ≠ o.optag)) ++ [(o.optag, k)] } else s
      | none => s
    let s := match o.staged with
      | some v => withdrawSwap s o.id.tenant v
      | none => s
    sendFinal s k o (finalAt s o seq { status := status }) []

/-- End an operation without OK by no frame of its own: its response carries the SEQ of its highest frame. -/
def decideEarly (s : State) (k status : Nat) : State :=
  match storeFind s.fratra.ops k with
  | none => s
  | some o => decideAt s k status o.lastSeq

/-! ## Authentication (R160, R161) -/

/-- The key of a slot, where the tag of a request verifies under it. -/
def verifyingKey (s : State) (c : Carriage) (r : Request) (slot : Nat) : Option (List Byte) :=
  (s.slotKey slot).bind fun k =>
    if r.tag = tagOf k (pseudoHeader (c.kind = 1) c.src c.dst c.vid) r.covered then some k else none

/-- R160: the key that verified, if the tenant has one, and the secure attribute; none where the frame is not admitted. -/
def authenticate (s : State) (c : Carriage) (r : Request) : Option (Option (List Byte) × Bool) :=
  if r.tenant = 0 then
    if !r.auth then none
    else
      match verifyingKey s c r 128 with
      | some k => some (some k, true)
      | none => (verifyingKey s c r 64).map fun k => (some k, false)
  else if (s.slotKey (64 + r.tenant)).isSome then
    if r.auth then (verifyingKey s c r (64 + r.tenant)).map fun k => (some k, false) else none
  else if r.auth then none else some (none, false)

/-- Step 2 of Table 6.8: the binding of R215, or the LMF rule of R180. -/
def tenantAdmitted (s : State) (c : Carriage) (n : Nat) : Bool :=
  if c.kind = 1 then n = 0 || s.bit Pg.SYS Off.SYS_PATH_EN 2
  else s.tenActive n && decide (s.tenVid n = c.vid) && decide (c.vid ≠ 0) && (s.tenPorts n).getLsbD c.port

/-! ## Op tags and admission -/

/-- An op tag is to be had (R203, R218). -/
def tagFree (s : State) (n : Nat) : Bool :=
  decide (opTags s n < s.optagQuota n) && (decide (opTags s n < s.optagRsv n) || decide (0 < sharedTags s))

/-- OPTAGS_PEAK follows the tags in use. -/
def notePeak (s : State) : State :=
  { s with fratra := { s.fratra with peak := max s.fratra.peak (opTagsAll s) } }

/-- The opcodes that write (R188). -/
def isWrite (op : Nat) : Bool := [0x10, 0x11, 0x12, 0x13, 0x14, 0x15, 0x20, 0x21].contains op

/-- What the pair makes of a write that reaches step 12 (R339, R340, Table 12.9). -/
def writeFenced (s : State) (n : Nat) : Bool :=
  s.mirrored n &&
  match s.acd.pair with
  | .alone | .joining | .away => false
  | .paired | .catchup =>
    !s.leads n || (!s.unmatched n && (storeFind s.acd.handover n).isSome)
  | .split => s.rank = 1
  | .isolated | .foreign =>
    s.fld Pg.ACD Off.ACD_ACD_CFG 12 12 = 1 && s.rank = 1 && !s.acd.takenOver

/-- The statuses that admission gives before any effect of Table 7.1 (R183, R192, R194, R339, R188). -/
def admissionFault (s : State) (r : Request) : Option Nat :=
  let n := r.tenant
  if isWrite r.opcode && [0x10, 0x11, 0x12, 0x13, 0x20, 0x21].contains r.opcode &&
      (reservedKey r.key || ([0x20, 0x21].contains r.opcode && reservedKey r.value)) then some St.MALFORMED
  else if isWrite r.opcode && r.options.bit 2 && !s.mirrored n then some St.UNSUPPORTED
  else if isWrite r.opcode && writeFenced s n then some St.FENCED
  else if r.opcode = 0x31 && r.offset = 1 && n ≠ 0 then some St.AUTH_FAIL
  else if r.opcode = 0x21 then
    match r.ext with
    | none => some St.MALFORMED
    | some (sec, ns, _) =>
      if sec * 1000000000 + ns ≤ s.ft.ns then some St.LATE
      else if (poolEntries s).isEmpty || !twinHasPool s n then some St.BUSY
      else if s.ft.mode = .unset then some St.UNSUPPORTED
      else none
  else none

/-- The charge that a write reserves at admission (R199); for APPEND, that of the new length beyond the old. -/
def reserveCharge (s : State) (r : Request) : Nat :=
  match r.opcode with
  | 0x10 | 0x11 | 0x13 => chargeOf r.total
  | 0x12 =>
    match s.findKey r.tenant r.key with
    | some e => chargeOf (contentLength e.content + r.total)
    | none => chargeOf r.total
  | 0x20 | 0x21 => 64
  | _ => 0

/-- Add a new operation under number `k`. -/
def putOp (s : State) (k : Nat) (o : OpState) : State :=
  { s with fratra := { s.fratra with ops := storeInsert s.fratra.ops k o } }

/-- Change an operation in flight. -/
def onOp (s : State) (k : Nat) (f : OpState → OpState) : State :=
  match storeFind s.fratra.ops k with
  | none => s
  | some o => putOp s k (f o)

/-- Note that a SEQ belongs to operation `k`. -/
def nameSeq (s : State) (i : StreamId) (seq : Word) (k : Nat) : State :=
  match s.findStream i with
  | none => s
  | some c => putStream s { c with names := c.names ++ [(seq, k)] }

/-- A successful write waits for the twin (Table 7.2). -/
def waitsTwin (s : State) (o : OpState) : Bool :=
  decide (s.beyond o.id.tenant = .mirror) && (s.mirrorPolicy o.id.tenant = 1 || o.options.bit 2)

/-- The op tag that a mirrored write of `o` waits under, if it waits. -/
def waitTag (s : State) (k : Nat) (o : OpState) : Option Nat := if waitsTwin s o then some k else none

/-! ## What a stream has received (R172, R174) -/

/-- The acceptance range (R174). -/
def accepts (c : StreamCtx) (seq : Word) : Bool := decide (seqDist c.base seq ≤ 1023)
/-- The cache range (R174). -/
def caches (c : StreamCtx) (seq : Word) : Bool := decide (seqDist (seqAdd c.base (2 ^ 32 - 1024)) seq ≤ 1023)

/-- The SEQ has been received (R172): every SEQ from BASE to N has, and some above. A SEQ of the cache range counts as
received, whether or not the stream ever held it (DEDUCED, log 13). -/
def received (c : StreamCtx) (seq : Word) : Bool :=
  caches c seq || decide (seqDist c.base seq < seqDist c.base (c.n + 1)) || c.got.any fun e => decide (e.1 = seq)

/-- N moves over what has been received above it (R176). -/
def advanceN : Nat → StreamCtx → StreamCtx
  | 0, c => c
  | fuel + 1, c =>
    match c.got.find? fun e => decide (e.1 = c.n + 1) with
    | none => c
    | some e => advanceN fuel { c with n := e.1, nStamp := e.2, got := c.got.filter fun g => decide (g.1 ≠ e.1) }

/-- A frame received. -/
structure Received where
  seq : Word
  req : Request
  carriage : Carriage
  auth : Option (List Byte)
  secure : Bool
  stamp : Nat
  deriving DecidableEq, Repr

/-- The frame's SEQ is consumed, as one of operation `k`. -/
def consume (s : State) (i : StreamId) (f : Received) (k : Nat) : State :=
  match s.findStream i with
  | none => s
  | some c =>
    nameSeq (putStream s (advanceN 1025
      { c with got := c.got ++ [(f.seq, if f.req.ext.isSome then some f.stamp else none)] })) i f.seq k

/-! ## Reassembly (R168 to R170) -/

/-- The place of a frame in its operation. A frame with FRAG 0 is the whole of it. -/
def pieceOf (f : Received) : Piece :=
  { seq := f.seq, offset := if f.req.frag then f.req.offset else 0, last := f.req.last, bytes := f.req.value }

/-- Fragments stand by rising SEQ. -/
def insertPiece (p : Piece) : List Piece → List Piece
  | [] => [p]
  | q :: l => if seqLe p.seq q.seq then p :: q :: l else q :: insertPiece p l

/-- Each fragment but the last is followed by the one that goes on where it ends. -/
def piecesJoin : List Piece → Bool
  | [] => false
  | [p] => p.last
  | p :: q :: l => !p.last && decide (q.seq = p.seq + 1) && decide (q.offset = p.offset + p.bytes.length) && piecesJoin (q :: l)

/-- Every fragment has been received. -/
def wholeValue (l : List Piece) : Bool := (l.head?.map Piece.offset) = some 0 && piecesJoin l

/-- Two fragments of consecutive SEQ do not join. -/
def pairBroken (l : List Piece) : Bool :=
  l.any fun p => l.any fun q => decide (q.seq = p.seq + 1) && (p.last || decide (q.offset ≠ p.offset + p.bytes.length))

/-- The fragment sequence is broken (R168): two fragments do not join, or a SEQ beside one that must be the operation's is
another's. -/
def sequenceBroken (c : StreamCtx) (l : List Piece) : Bool :=
  let foreign (q : Word) : Bool := received c q && l.all fun p => decide (p.seq ≠ q)
  pairBroken l || l.any fun p => (!p.last && foreign (p.seq + 1)) || (p.offset ≠ 0 && foreign (p.seq - 1))

/-- A frame at `seq` that is none of the operation's lies between two of its frames (R168). -/
def interrupted (o : OpState) (seq : Word) : Bool :=
  o.pieces.any (fun p => (!p.last && decide (p.seq + 1 = seq)) || (p.offset ≠ 0 && decide (seq + 1 = p.seq))) ||
    (o.pieces.any (fun p => seqLe p.seq seq) && o.pieces.any fun p => seqLe seq p.seq)

/-- The operations of a stream under reassembly. -/
def assembling (s : State) (i : StreamId) : List (Nat × OpState) :=
  s.fratra.ops.filter fun e => decide (e.2.id = i) && decide (e.2.phase = .assembling)

/-- A frame decides every operation of its stream that it interrupts, `own` apart (R168, R169). -/
def interrupt (s : State) (i : StreamId) (own : Option Nat) (seq : Word) : State :=
  (assembling s i).foldl (fun s e =>
    if decide (own ≠ some e.1) && interrupted e.2 seq then decideAt s e.1 St.MALFORMED seq else s) s

/-- A fragment's bytes are placed (R170); one that is not the last is settled (R172). A broken sequence ends the operation, a
whole one makes it ready. -/
def placeFragment (s : State) (k : Nat) (i : StreamId) (f : Received) : State :=
  let n := s.fratra.nextOrder
  let s := { s with fratra := { s.fratra with nextOrder := n + if f.req.last then 1 else 0 } }
  let s := onOp s k fun o =>
    { o with pieces := insertPiece (pieceOf f) o.pieces
             lastSeq := if seqLe o.lastSeq f.seq then f.seq else o.lastSeq
             order := if f.req.last then some n else o.order }
  let s := if f.req.value.isEmpty then s else dramMoved s i.tenant f.req.value.length
  match s.findStream i, storeFind s.fratra.ops k with
  | some c, some o =>
    if sequenceBroken c o.pieces then decideAt s k St.MALFORMED f.seq
    else
      let s := if f.req.last then s else putStream s (settleSeq c f.seq)
      if wholeValue o.pieces then
        onOp s k fun o =>
          { o with phase := .ready, data := o.pieces.flatMap Piece.bytes
                   pieces := o.pieces.map fun p => { p with bytes := [] } }
      else s
  | _, _ => s

/-- End operation `k` by a frame that is answered with a failure. -/
def failFrame (s : State) (k : Nat) (f : Received) (status : Nat) : State :=
  decideAt (onOp s k fun o =>
    { o with pieces := insertPiece { pieceOf f with bytes := [] } o.pieces
             lastSeq := if seqLe o.lastSeq f.seq then f.seq else o.lastSeq }) k status f.seq

/-! ## Step 12 of Table 6.8 -/

/-- The operation that a frame begins. -/
def newOp (i : StreamId) (f : Received) : OpState :=
  let r := f.req
  { id := i, carriage := f.carriage, opcode := r.opcode, optag := r.optag, options := r.options, key := r.key
    version := r.version, offset := r.offset, total := r.total
    ext := r.ext.map fun e => e.1 * 1000000000 + e.2.1, lastSeq := f.seq, admitNs := 0, auth := f.auth
    secure := f.secure, admitted := false }

/-- Hold a new operation under the next number. -/
def addOp (s : State) (o : OpState) : State :=
  putOp { s with fratra := { s.fratra with nextOp := s.fratra.nextOp + 1 } } s.fratra.nextOp o

/-- Stage the swap of an ALIAS_SWAP_AT at its admission (R194). -/
def stageOp (s : State) (k : Nat) (f : Received) : State :=
  match storeFind s.fratra.ops k with
  | none => s
  | some o =>
    let waits := waitsTwin s o
    let (v, s) := stageSwap s
      { tenant := o.id.tenant, aliasKey := o.key, target := f.req.value, ident := 0, ns := o.ext.getD 0
        skipLate := o.options.bit 4, admitNs := s.ft.ns, entry := none } (if waits then some k else none) o.carriage
    onOp s k fun o => { o with staged := some v, twinStage := if waits then some false else none }

/-- Operation `k` is admitted with its first frame (R185, R188, R194, R199, R203): statuses of admission, reservation, op tag,
and the frame's bytes. -/
def admitOp (s : State) (k : Nat) (i : StreamId) (f : Received) : State :=
  match admissionFault s f.req with
  | some st => failFrame (if st = St.BUSY then setFlag s Pg.TAT 4 else s) k f st
  | none =>
    let charge := reserveCharge s f.req
    let (fits, s) := if charge = 0 then (true, s) else reserveFits s i.tenant charge
    if !fits then failFrame s k f St.QUOTA_FULL
    else
      let s := notePeak (onOp s k fun o =>
        { o with reserved := charge, admitted := true, admitNs := s.ft.ns, carriage := f.carriage, auth := f.auth
                 secure := f.secure, options := f.req.options })
      placeFragment (if f.req.opcode = 0x21 then stageOp s k f else s) k i f

/-- The frame begins its operation: it is the whole of it, or its fragment at OFFSET 0. -/
def firstFrame (r : Request) : Bool := !r.frag || r.offset = 0

/-- The operation under reassembly that a frame belongs to, by OPTAG (R169, R204). -/
def ownOp (s : State) (i : StreamId) (r : Request) : Option (Nat × OpState) :=
  (assembling s i).find? fun e =>
    decide (e.2.optag = r.optag) && (r.offset ≠ 0 || (r.frag && !e.2.admitted))

/-- A frame of an operation repeats what R168 says it repeats. OPEN counts in the first frame only. -/
def agrees (o : OpState) (r : Request) : Bool :=
  requestFault r = none && r.frag && r.opcode = o.opcode && decide (r.key = o.key) && r.version = o.version &&
    r.total = o.total && decide (r.options &&& ~~~ 2 = o.options &&& ~~~ 2)

/-- A first frame without fault that finds no op tag is answered BUSY, its SEQ not consumed (R203). -/
def wantsTag (s : State) (i : StreamId) (own : Option (Nat × OpState)) (r : Request) : Bool :=
  firstFrame r && requestFault r = none && (own.map fun e => agrees e.2 r) ≠ some false && !tagFree s i.tenant

/-- Residue of an operation decided before its last frame (R169). -/
def residueOf (c : StreamCtx) (r : Request) : Option Nat :=
  if r.offset = 0 then none else (c.residue.find? fun e => decide (e.1 = r.optag)).map Prod.snd

/-- Steps 9 to 12 of Table 6.8 (R168, R169), for a frame wherever its SEQ lies above BASE: whether its SEQ was consumed. -/
def handleFrame (s : State) (i : StreamId) (c : StreamCtx) (f : Received) : Bool × State :=
  match residueOf c f.req with
  | some k =>
    let s := consume (bump (interrupt s i none f.seq) Pg.FWP 0x068) i f k
    match s.findStream i with
    | none => (true, s)
    | some c => (true, putStream s (settleSeq c f.seq))
  | none =>
    let own := ownOp s i f.req
    let s := interrupt s i (own.map Prod.fst) f.seq
    if wantsTag s i own f.req then
      let w := match s.findStream i with
        | some c => windowOf s c f.seq
        | none => 0
      (false, answerFrame s f.carriage f.auth f.req St.BUSY w 0 false)
    else
      match own with
      | some (k, o) =>
        let s := consume s i f k
        (true,
          if !agrees o f.req then failFrame s k f St.MALFORMED
          else if firstFrame f.req then admitOp s k i f
          else placeFragment s k i f)
      | none =>
        let k := s.fratra.nextOp
        let s := consume (addOp s (newOp i f)) i f k
        let s := match s.findStream i with
          | some c => putStream s { c with residue := c.residue.filter fun e => decide (e.1 ≠ f.req.optag) }
          | none => s
        (true,
          match requestFault f.req with
          | some st => failFrame s k f st
          | none => if firstFrame f.req then admitOp s k i f else placeFragment s k i f)

/-! ## Arrival (Table 6.8) -/

/-- A duplicate (R175), answered the way it came. -/
def answerDuplicate (s : State) (i : StreamId) (c : StreamCtx) (f : Received) : State :=
  match (c.names.find? fun e => decide (e.1 = f.seq)).map Prod.snd with
  | none => bump s Pg.FWP 0x060
  | some k =>
    match (c.finals.find? fun e => decide (e.1 = k)).map Prod.snd with
    | some a =>
      let s := creditOne (bump s Pg.FWP 0x090) i
      let c := (s.findStream i).getD c
      sendResp (putStream s { c with owed := false }) f.carriage
        { tenant := i.tenant, opcode := a.opcode, optag := a.optag, stream := i.stream, seq := a.seq, status := a.status
          window := windowOf s c a.seq, version := a.version, offset := a.offset, total := a.total, dup := true
          mirrored := a.mirrored, ext := if a.showExt then some a.ext else none, auth := f.auth }
    | none =>
      match storeFind s.fratra.ops k with
      | some o =>
        if o.pieces.any fun p => decide (p.seq = f.seq) && !p.last then
          sendProgress (bump s Pg.FWP 0x090) i f.carriage f.auth true
        else bump s Pg.FWP 0x060
      | none => bump s Pg.FWP 0x060

/-- A fresh stream context (R173). -/
def freshStream (s : State) (i : StreamId) (seq : Word) (c : Carriage) (auth : Option (List Byte)) : StreamCtx :=
  { id := i, base := seq, limit := seqAdd seq (s.burstMax i.tenant - 1), n := seq - 1, carriage := c, auth := auth
    held := streamHold s i.tenant }

/-- Operations of a stream in flight. -/
def streamBusy (s : State) (i : StreamId) : Bool := s.fratra.ops.any fun e => decide (e.2.id = i)

/-- Remove a stream's context. -/
def dropStream (s : State) (i : StreamId) : State :=
  { s with fratra := { s.fratra with streams := s.fratra.streams.filter fun c => decide (c.id ≠ i) } }

/-- The port where the last admitted request from an address for a tenant arrived (R179). -/
def noteSeen (s : State) (n : Nat) (c : Carriage) : State :=
  if c.kind = 0 then
    onTen s n fun t => { t with seenAt := t.seenAt.filter (fun e => decide (e.1 ≠ c.src)) ++ [(c.src, c.port)] }
  else s

/-- Steps 5 to 12 of Table 6.8 for a frame whose stream has context `c`. -/
def arriveAt (s : State) (i : StreamId) (c : StreamCtx) (f : Received) : State :=
  if !accepts c f.seq && !caches c f.seq then
    answerFrame s f.carriage f.auth f.req St.OUT_OF_WINDOW 0 (c.base.toNat * 2 ^ 32 + c.limit.toNat) false
  else if received c f.seq then answerDuplicate s i c f
  else if !seqLe f.seq c.limit then bump s Pg.FWP 0x058
  else if streamHold s i.tenant then answerFrame s f.carriage f.auth f.req St.BUSY 0 0 false
  else
    let c := { c with carriage := f.carriage, auth := f.auth }
    let (used, s) := handleFrame (noteSeen (putStream s c) i.tenant f.carriage) i c f
    if used && f.req.burst = 0 && !f.req.last && (s.findStream i).isSome then
      sendProgress s i f.carriage f.auth false
    else s

/-- Steps 4 to 12 of Table 6.8, for a frame of an admitted tenant (R173). -/
def arriveStream (s : State) (i : StreamId) (f : Received) : State :=
  let fresh (s : State) : State :=
    if 16384 ≤ s.fratra.streams.length then answerFrame s f.carriage f.auth f.req St.BUSY 0 0 true
    else
      let ctx := freshStream s i f.seq f.carriage f.auth
      arriveAt { s with fratra := { s.fratra with streams := s.fratra.streams ++ [ctx] } } i ctx f
  match s.findStream i with
  | none =>
    if f.req.options.bit 1 then fresh s else answerFrame s f.carriage f.auth f.req St.OUT_OF_WINDOW 0 0 true
  | some ctx =>
    if f.req.options.bit 1 && !accepts ctx f.seq then
      if streamBusy s i then
        answerFrame s f.carriage f.auth f.req St.OUT_OF_WINDOW 0 (ctx.base.toNat * 2 ^ 32 + ctx.limit.toNat) false
      else fresh (dropStream s i)
    else arriveAt s i ctx f

/-- The stream of a request (R172). -/
def streamOf (c : Carriage) (r : Request) : StreamId :=
  { tenant := r.tenant, client := if c.kind = 1 then 0 else c.src, stream := r.stream }

/-- A Fratra frame is checked on arrival (Table 6.8). `stamp` is its receive stamp. -/
def arriveFrame (s : State) (c : Carriage) (stamp : Nat) (part : List Byte) : State :=
  let r := parseRequest part
  if part.length < 32 ∨ r.ver ≠ 1 ∨ r.resp = true ∨ (c.kind ≠ 1 ∧ c.src.getLsbD 40 = true) ∨ r.whole = false then
    bump s Pg.FWP 0x040
  else if !tenantAdmitted s c r.tenant then setFlag (bump s Pg.FWP 0x048) Pg.FWP 1
  else
    match authenticate s c r with
    | none => setFlag (bump s Pg.FWP 0x050) Pg.FWP 0
    | some (auth, secure) =>
      if (s.ten r.tenant).rstBusy then answerFrame s c auth r St.BUSY 0 0 true
      else
        arriveStream s (streamOf c r)
          { seq := r.seq, req := r, carriage := c, auth := auth, secure := secure, stamp := stamp }

/-! ## The ingress (R180, R220) -/

/-- A frame waiting at the engine: its role (1 Top, 2 Heart, 3 Base), its order, and where it stands: a port's queue
(port, queue), or the LMF's bulk buffer. -/
structure Waiting where
  role : Nat
  order : Nat
  place : Option (Nat × Nat)
  deriving DecidableEq, Repr

/-- The role under which an LMF packet waits: its tenant's note, TC0 as Top (R180). -/
def lmfRole (s : State) (part : List Byte) : Nat :=
  let n := ((part.drop 1).headD 0).toNat % 64
  if n = 0 then 1 else 1 + min (s.note n) 2

/-- The oldest waiting frame of every Fratra queue, and of the LMF. -/
def waitingFrames (s : State) : List Waiting :=
  ((List.range 4).flatMap fun k => (List.range 16).filterMap fun q =>
    let role := s.queueRole k q
    if 1 ≤ role ∧ role ≤ 3 then
      ((storeLook (s.port k).queues q []).head?).map fun f => { role := role, order := f.order, place := some (k, q) }
    else none) ++
  s.usb.bulk.map fun b => { role := lmfRole s b.2.bytes, order := b.1, place := none }

/-- Top, Heart, Base, oldest first within a role. -/
def nextWaiting (s : State) : Option Waiting :=
  (waitingFrames s).foldl (fun b w =>
    match b with
    | none => some w
    | some v => if w.role < v.role ∨ (w.role = v.role ∧ w.order < v.order) then some w else b) none

/-- What the HKP's copy of a received Ethernet frame tells the engine. -/
def portCarriage (s : State) (k : Nat) (bs : List Byte) : Carriage :=
  let i := s.readHead k bs
  { kind := 0, port := k, src := macOf ((bs.drop 6).take 6), dst := macOf (bs.take 6), vid := i.vid.getD 0 }

/-- The engine takes the next waiting frame (R162, R180, R220): its cells are free, or its place in the LMF's buffer. -/
def doArrival (s : State) : State :=
  if !s.inRun then s
  else
    match nextWaiting s with
    | none => s
    | some w =>
      match w.place with
      | some (k, q) =>
        match storeLook (s.port k).queues q [] with
        | [] => s
        | f :: rest =>
          let s := xoffUpdate (onPort s k fun p => { p with queues := storePut p.queues q [] rest }) k q
          let n := tagCount (s.sTpid k) f.bytes
          arriveFrame s (portCarriage s k f.bytes) f.stamp (f.bytes.drop (14 + 4 * n))
      | none =>
        match s.usb.bulk.find? fun b => decide (b.1 = w.order) with
        | none => s
        | some b =>
          arriveFrame (onUsb s fun u => { u with bulk := u.bulk.filter fun e => decide (e.1 ≠ w.order) })
            { kind := 1 } s.ft.ns b.2.bytes

/-- PROGRESS_RESPONSE: a change of LIMIT, or the end of a hold, that no response has carried (R178). -/
def doProgressResponse (s : State) (i : StreamId) : State :=
  match s.findStream i with
  | none => s
  | some c => if c.owed then sendProgress s i c.carriage c.auth false else s

/-- STREAM_IDLE: a context with no operation in flight may be reclaimed (R173); it is. -/
def doStreamIdle (s : State) (i : StreamId) : State := if streamBusy s i then s else dropStream s i

/-! ## Ending operations for other chapters' reasons -/

/-- Answer every operation of a set that is not yet at its commit point ABORTED, and those that wait for the twin with
what they were to answer, MIRRORED = 0 (R113, R208, R228). -/
def abortOps (which : OpState → Bool) (s : State) : State :=
  s.fratra.ops.foldl (fun s e =>
    if which e.2 then
      match e.2.phase with
      | .waitTwin f => sendFinal s e.1 e.2 { f with mirrored := false } []
      | _ => decideEarly s e.1 St.ABORTED
    else s) s

end Sys2Proof.Machine
end

