-- ==== Sys2Proof/Machine/Kv.lean ====
section
/-! DEFINITION. Machine/Kv.lean: what each key-value operation does at its commit or read point (R182 to R202, Table 7.1),
staged swaps (R194 to R197), snapshot markers (R198), the incident window (R201), and the health report that STAT
returns (R293). -/

namespace Sys2Proof.Machine

/-! ## Order (R190, R191) -/

/-- The operation acts on one key, which orders it. -/
def keyed (o : OpState) : Bool := o.opcode ≠ 0x30 && !o.key.isEmpty

/-- The operation has neither committed nor fixed a read point. -/
def notYet (o : OpState) : Bool := decide (o.phase = .assembling) || decide (o.phase = .ready)

/-- Operation `e` comes before `o`: in the same stream by the SEQs of their last frames, in different ones by the admission of
their last frames (R190). -/
def comesBefore (e o : OpState) : Bool :=
  if e.id = o.id then seqLe e.lastSeq o.lastSeq
  else
    match e.order, o.order with
    | some a, some b => a < b
    | _, _ => false

/-- An earlier operation of its stream or on its key comes first: a FLUSH of the stream (R191), or an operation on the same
key where one of the two writes: from the same stream any such pair, from different streams two writes (R190). -/
def mustWait (s : State) (k : Nat) (o : OpState) : Bool :=
  s.fratra.ops.any fun e =>
    e.1 ≠ k && notYet e.2 && comesBefore e.2 o &&
      ((decide (e.2.id = o.id) && e.2.opcode = 0x3F) ||
       (decide (e.2.id.tenant = o.id.tenant) && decide (e.2.key = o.key) && keyed o && keyed e.2 &&
        (if e.2.id = o.id then isWrite e.2.opcode || isWrite o.opcode else isWrite e.2.opcode && isWrite o.opcode)))

/-- Every SEQ of the operation's stream up to its last has been received: what comes before it is known. -/
def noneMissing (s : State) (o : OpState) : Bool :=
  match s.findStream o.id with
  | some c => seqLe o.lastSeq c.n
  | none => true

/-- The structures of the index that an operation needs are being rebuilt (R258, Table 9.14). DEDUCED (log 127): any operation
may need the 4 KiB under repair. -/
def indexRebuilds (s : State) : Bool := s.ftl.dram.rebuilding ≠ 0

/-- The operation can reach its commit or read point now: every frame received, its turn come (DEDUCED, log 14: not before
the SEQs below it), the core in RUN, the index not being rebuilt (R258), and for a write the hold-up bank known (R308). -/
def opReady (s : State) (op k : Nat) : Option OpState :=
  match storeFind s.fratra.ops k with
  | some o =>
    if s.inRun && o.opcode = op && decide (o.phase = .ready) && noneMissing s o && !mustWait s k o && !indexRebuilds s &&
        (takesWrites s || !isWrite op) then some o
    else none
  | none => none

/-! ## Acknowledgement (R192) -/

/-- Acknowledge a committed write: at once, or when the twin has it. -/
def ackWrite (waits : Bool) (s : State) (k : Nat) (o : OpState) (a : Answer) : State :=
  if waits then onOp s k fun p => { p with reserved := 0, phase := .waitTwin (finalOf s o { a with mirrored := true }) }
  else finishOp s k a

/-- A key that is lost or healing is answered so (Table 7.4). A read that meets a HEALING key asks for it first (R287,
R357). -/
def damageStatus (e : KeyEntry) : Option Nat :=
  match e.damage with
  | .none => none
  | .lost => some St.VALUE_LOST
  | .healing => some St.HEALING

/-- The request for a key goes ahead of its tenant's other requests (R287). -/
def askFirst (s : State) (n : Nat) (key : List Byte) : State :=
  onAcd s fun a =>
    let mine (m : AccMsg) : Bool := match m with
      | .keyReq q => decide (q.tenant = n ∧ q.key = key)
      | _ => false
    { a with out := a.out.filter mine ++ a.out.filter fun m => !mine m }

/-- Answer a damaged key. -/
def answerDamage (s : State) (k n : Nat) (e : KeyEntry) (st : Nat) : State :=
  finishOp (if e.damage = .healing then askFirst s n e.key else s) k { status := st }

/-! ## Reads -/

/-- GET and GET_RANGE resolve an alias one level (R193). A lost or healing alias is not resolved: its own state answers
(R206). -/
def resolveKey (s : State) (n : Nat) (key : List Byte) : Option KeyEntry :=
  match s.findKey n key with
  | none => none
  | some e =>
    match e.content with
    | .value _ => some e
    | .aliasTo t =>
      if e.damage ≠ .none then some e else
      match s.findKey n t with
      | some f => match f.content with
        | .value _ => some f
        | .aliasTo _ => none
      | none => none

/-- The bytes a key holds: its value, or the name an alias holds. -/
def contentBytes (e : KeyEntry) : List Byte :=
  match e.content with
  | .value bs => bs
  | .aliasTo t => t

def readOp (op k : Nat) (deliver : OpState → List Byte → Nat × Nat × List Byte) (s : State) : State :=
  match opReady s op k with
  | none => s
  | some o =>
    let touch (s : State) (key : Option KeyEntry) : State := match key with
      | some e => touchKey s o.id.tenant e
      | none => s
    let s := touch s (s.findKey o.id.tenant o.key)
    let s := touch s (resolveKey s o.id.tenant o.key)
    match resolveKey s o.id.tenant o.key with
    | none => finishOp s k { status := St.NOT_FOUND }
    | some e =>
      match damageStatus e with
      | some st => answerDamage s k o.id.tenant e st
      | none =>
        let (offset, total, bytes) := deliver o (contentBytes e)
        finishOp (readRegions s e) k { status := St.OK, version := e.version, offset := offset, total := total, value := bytes }

/-- GET (R188). -/
def doGet (k : Nat) (s : State) : State := readOp 0x01 k (fun _ bs => (0, bs.length, bs)) s

/-- GET_RANGE: the bytes of the range that exist (R164, R188). -/
def doGetRange (k : Nat) (s : State) : State :=
  readOp 0x02 k (fun o bs =>
    if bs.length ≤ o.offset then (o.offset, o.offset, [])
    else
      let last := min bs.length (o.offset + o.total)
      (o.offset, last, (bs.drop o.offset).take (last - o.offset))) s

/-- HELD, ALIAS, HEALING, LOST (Table 6.7). -/
def keyFlags (e : KeyEntry) : Nat :=
  b2n (keyHeld e) 1 + b2n (match e.content with | .aliasTo _ => true | .value _ => false) 2 +
    b2n (e.damage = .healing) 4 + b2n (e.damage = .lost) 8

/-- A SCAN entry (Table 6.7). -/
def scanEntry (e : KeyEntry) : List Byte :=
  [BitVec.ofNat 8 e.key.length] ++ e.key ++ beBytes 8 e.version ++ beBytes 4 (contentLength e.content) ++
    [BitVec.ofNat 8 (keyFlags e)]

/-- Whole entries up to the listing limit; the first is delivered whatever its length (R165). -/
def scanTake (limit : Nat) : List KeyEntry → List Byte → List Byte × List KeyEntry
  | [], acc => (acc, [])
  | e :: t, acc =>
    if acc.isEmpty || decide (acc.length + (scanEntry e).length ≤ limit) then scanTake limit t (acc ++ scanEntry e)
    else (acc, e :: t)

/-- The key names at or after which a listing goes on: none from the start; a foreign cursor gives nothing (R202). -/
def cursorAfter (s : State) (n : Nat) (keyPrefix : List Byte) (v : Nat) : Option (Option (List Byte)) :=
  if v = 0 then some none
  else (s.fratra.cursors.find? fun c =>
    decide (c.value.toNat = v ∧ c.tenant = n ∧ c.keyPrefix = keyPrefix)).map fun c => some c.after

/-- A fresh cursor: its value is free, but never 0, which means a complete scan (R202). -/
def issueCursor (s : State) (n : Nat) (keyPrefix after : List Byte) : Nat × State :=
  let (i, s) := drawFree s
  let v := if Config.scanCursor i = 0 then 1 else Config.scanCursor i
  (v.toNat, { s with fratra := { s.fratra with
      cursors := { value := v, tenant := n, keyPrefix := keyPrefix, after := after } :: s.fratra.cursors } })

/-- SCAN (R202). -/
def doScan (k : Nat) (s : State) : State :=
  match opReady s 0x30 k with
  | none => s
  | some o =>
    let n := o.id.tenant
    match cursorAfter s n o.key o.version with
    | none => finishOp s k { status := St.MALFORMED }
    | some after =>
      let keys := (s.ten n).keys.filter fun e =>
        decide (e.key.take o.key.length = o.key) &&
          match after with
          | none => true
          | some a => keyLess a e.key
      let (bytes, rest) := scanTake (if o.total = 0 then 65536 else o.total) keys []
      let (cursor, s) := match rest with
        | [] => (0, s)
        | r :: _ =>
          let listed := keys.filter fun e => keyLess e.key r.key
          match listed.getLast? with
          | some l => issueCursor s n o.key l.key
          | none => (0, s)
      finishOp s k { status := St.OK, version := cursor, total := bytes.length, value := bytes }

/-! ### STAT -/

/-- The key record of Table 6.7. -/
def keyRecord (e : KeyEntry) : List Byte :=
  beBytes 8 e.version ++ beBytes 8 (contentLength e.content) ++ beBytes 4 (keyFlags e) ++
    ftBytes e.lastNs e.lastMode e.lastStep

/-- The tenant record of Table 6.7. -/
def tenantRecord (s : State) (n : Nat) : List Byte :=
  beBytes 8 (keyCount s n) ++ beBytes 8 (sumBy (fun e => contentLength e.content) (s.ten n).keys) ++
    beBytes 8 (s.reg (Pg.TEN n) Off.TEN_CAP_QUOTA).toNat ++ beBytes 8 (ceilDiv (usedCharge s n) 1048576) ++
    beBytes 4 (opTags s n) ++ beBytes 4 (s.optagQuota n)

/-- A signed number in two's complement. -/
def intBytes (k : Nat) (v : Int) : List Byte := beBytes k (v % (2 ^ (8 * k) : Nat)).toNat

/-- The health report (R293, Table 10.5). -/
def healthReport (s : State) : List Byte :=
  let h := s.ftl.health
  let flags := b2n (h.failedDies ≠ 0) 1 + b2n (s.ftl.formatted && sparePct100 s < 2000) 2 +
    b2n (s.ftl.formatted && 9000 ≤ wearPct100 s) 4 + b2n (decide (tempLimit s < h.tempNow)) 8
  beBytes 2 1 ++ beBytes 2 flags ++ beBytes 2 (sparePct100 s) ++ beBytes 2 0 ++ beBytes 4 (spareLeft s) ++
    beBytes 4 (spareFormat s) ++ beBytes 4 (wearPct100 s) ++ beBytes 4 (eraseAvg s) ++ beBytes 4 (eraseMax s) ++
    beBytes 4 (ratedPe s) ++ ((List.range 8).flatMap fun i => beBytes 8 (storeLook h.hist i 0)) ++
    beBytes 8 h.softUses ++ beBytes 8 h.uncorr ++ beBytes 4 h.grownBad ++ beBytes 2 h.failedDies ++
    beBytes 2 (rotation s).length ++ beBytes 8 (damageCount s .healing) ++ beBytes 8 (damageCount s .lost) ++
    ((List.range 33).flatMap fun i => beBytes 4 (storeLook h.tempBins i 0)) ++ intBytes 2 h.tempMax ++
    intBytes 2 (tempLimit s) ++ beBytes 4 h.minAbove ++ ftNow s

/-- STAT (R188, Table 6.7). -/
def doStat (k : Nat) (s : State) : State :=
  match opReady s 0x31 k with
  | none => s
  | some o =>
    let record (s : State) (bs : List Byte) : State := finishOp s k { status := St.OK, total := bs.length, value := bs }
    if o.offset = 1 then record s (healthReport s)
    else if o.key.isEmpty then record s (tenantRecord s o.id.tenant)
    else
      match s.findKey o.id.tenant o.key with
      | none => finishOp s k { status := St.NOT_FOUND }
      | some e => record s (keyRecord e)

/-- FLUSH: its response follows those of every earlier operation of its stream (R191). -/
def doFlush (k : Nat) (s : State) : State :=
  match opReady s 0x3F k with
  | none => s
  | some o =>
    if s.fratra.ops.any fun e => e.1 ≠ k && decide (e.2.id = o.id) && seqLe e.2.lastSeq o.lastSeq then s
    else finishOp s k { status := St.OK }

/-! ## Writes -/

/-- Commit a value, or answer QUOTA_FULL where the key index is full (R199). `total` is the TOTAL of the response. -/
def writeValue (s : State) (k : Nat) (o : OpState) (total : Nat := 0) : State :=
  let n := o.id.tenant
  if (s.findKey n o.key).isNone && decide (keyCap s ≤ keyTotal s) then
    finishOp (setFlag s (Pg.TEN n) 2) k { status := St.QUOTA_FULL }
  else
    let waits := waitsTwin s o
    let (v, t) := commitPut s n o.key (.value o.data) o.admitNs (waitTag s k o) o.carriage
    let t := bumpBy t (Pg.TEN n) 0x050 o.data.length
    ifRoom s (ackWrite waits t k o { status := St.OK, version := v, total := total })

/-- PUT (R188). -/
def doPut (k : Nat) (s : State) : State :=
  match opReady s 0x10 k with
  | none => s
  | some o =>
    match s.findKey o.id.tenant o.key with
    | some e => if keyHeld e then finishOp s k { status := St.HELD } else writeValue s k o
    | none => writeValue s k o

/-- PUT_IF_ABSENT (R188). -/
def doPutIfAbsent (k : Nat) (s : State) : State :=
  match opReady s 0x11 k with
  | none => s
  | some o =>
    match s.findKey o.id.tenant o.key with
    | some e => finishOp s k { status := St.EXISTS, version := e.version }
    | none => writeValue s k o

/-- CAS (R188). -/
def doCas (k : Nat) (s : State) : State :=
  match opReady s 0x13 k with
  | none => s
  | some o =>
    match s.findKey o.id.tenant o.key with
    | none => finishOp s k { status := St.NOT_FOUND }
    | some e =>
      if keyHeld e then finishOp s k { status := St.HELD }
      else if o.version = 0 ∨ e.version ≠ o.version then
        finishOp s k { status := St.VERSION_MISMATCH, version := e.version }
      else writeValue s k o

/-- APPEND (R188, R248). -/
def doAppend (k : Nat) (s : State) : State :=
  match opReady s 0x12 k with
  | none => s
  | some o =>
    let n := o.id.tenant
    match s.findKey n o.key with
    | none => writeValue s k o o.data.length
    | some e =>
      match damageStatus e, e.content with
      | some st, _ => answerDamage s k n e st
      | none, .aliasTo _ => finishOp s k { status := St.UNSUPPORTED }
      | none, .value old =>
        if keyHeld e then finishOp s k { status := St.HELD }
        else if 67108864 < old.length + o.data.length then finishOp s k { status := St.TOO_LARGE }
        else
          let waits := waitsTwin s o
          let (v, t) := commitAppend s n e old o.data (waitTag s k o) o.carriage
          let t := bumpBy t (Pg.TEN n) 0x050 o.data.length
          ifRoom s (ackWrite waits t k o
            { status := St.OK, version := v, offset := old.length, total := old.length + o.data.length })

/-- DELETE (R188). -/
def doDelete (k : Nat) (s : State) : State :=
  match opReady s 0x14 k with
  | none => s
  | some o =>
    let n := o.id.tenant
    match s.findKey n o.key with
    | none => finishOp s k { status := St.NOT_FOUND }
    | some e =>
      if o.version ≠ 0 ∧ e.version ≠ o.version then
        finishOp s k { status := St.VERSION_MISMATCH, version := e.version }
      else if keyHeld e then finishOp s k { status := St.HELD }
      else
        let waits := waitsTwin s o
        ackWrite waits (commitDelete s n e (waitTag s k o) o.carriage) k o { status := St.OK, version := e.version }

/-- HOLD and RELEASE (R188, R200). -/
def holdOpOf (hold : Bool) (k : Nat) (s : State) : State :=
  match opReady s 0x15 k with
  | none => s
  | some o =>
    if o.options.bit 3 ≠ hold then s
    else
      match s.findKey o.id.tenant o.key with
      | none => finishOp s k { status := St.NOT_FOUND }
      | some e =>
        let waits := waitsTwin s o
        ackWrite waits (commitHold s o.id.tenant e hold (waitTag s k o) o.carriage) k o { status := St.OK, version := e.version }

def doHold (k : Nat) (s : State) : State := holdOpOf true k s
def doRelease (k : Nat) (s : State) : State := holdOpOf false k s

/-- ALIAS_SET (R188, R193). -/
def doAliasSet (k : Nat) (s : State) : State :=
  match opReady s 0x20 k with
  | none => s
  | some o =>
    let n := o.id.tenant
    let set_ (s : State) : State :=
      if (s.findKey n o.key).isNone && decide (keyCap s ≤ keyTotal s) then
        finishOp (setFlag s (Pg.TEN n) 2) k { status := St.QUOTA_FULL }
      else
        let waits := waitsTwin s o
        let (v, t) := commitPut s n o.key (.aliasTo o.data) o.admitNs (waitTag s k o) o.carriage
        ifRoom s (ackWrite waits t k o { status := St.OK, version := v })
    match s.findKey n o.key with
    | some e => if keyHeld e then finishOp s k { status := St.HELD } else set_ s
    | none => set_ s

/-! ## Staged swaps (R194 to R197, R343) -/

/-- ALIAS_SWAP_AT answers for the stage made at its admission, at the class of Table 7.2 (R194 step 4): MIRRORED once the
twin has staged the same swap. -/
def doAliasSwapAt (k : Nat) (s : State) : State :=
  match opReady s 0x21 k with
  | none => s
  | some o =>
    ackWrite (waitsTwin s o && o.twinStage = some false) s k o
      { status := St.OK, version := o.staged.getD 0, mirrored := o.twinStage = some true }

/-- This LH-96 is the follower of a mirrored tenant in the pair, where a swap's version comes from the lead (R197). -/
def followsPair (s : State) (n : Nat) : Bool :=
  s.mirrored n && !s.leads n && (s.acd.pair = .paired || s.acd.pair = .catchup)

/-- Put the alias of a staged swap into the key index with a given version, without telling the twin. Its T_first is the
admission of the operation that staged it (R185). -/
def putAlias (s : State) (w : Swap) (version : Nat) : State :=
  let n := w.tenant
  let old := s.findKey n w.aliasKey
  let (lay, s) := placeContent s n (.aliasTo w.target)
  let s := applyCommit s
    { tenant := n, key := w.aliasKey, content := .aliasTo w.target, layout := lay, firstNs := w.admitNs, version := version }
  let s := match old with
    | some e => freeLayout s n e.layout
    | none => s
  windowHold (healedCheck s n old) n w.aliasKey

/-- A staged swap commits (R195, R197): on the lead with a new version, on the follower with the alias's previous one
until the lead's arrives. -/
def commitSwap (s : State) (w : Swap) : State :=
  let s := dropSwap s w
  let s := bump s Pg.KVX 0x060
  if followsPair s w.tenant then
    let old := ((s.findKey w.tenant w.aliasKey).map KeyEntry.version).getD 0
    match w.leadVer with
    | some v => putAlias (onTen s w.tenant fun t => { t with verCtr := max t.verCtr v }) w v
    | none =>
      let s := putAlias s w old
      { s with fratra := { s.fratra with timed := s.fratra.timed ++ [(w.tenant, w.ident, w.aliasKey)] } }
  else
    let (v, s) := nextVersion s w.tenant
    tellSwap (putAlias s w v) w v

/-- What became of an ALIAS_COMMIT (R195): its code, 0 when it committed. -/
def fireSwap (s : State) (n ident : Nat) : Nat × State :=
  match findSwap s n ident with
  | none => (0x40, internalErr s Pg.KVX 0x40)
  | some w =>
    let held := ((s.findKey n w.aliasKey).map keyHeld).getD false
    if held then (0x41, tellSwap (setFlag (internalErr (dropSwap s w) Pg.KVX 0x41) Pg.KVX 4) w 0)
    else (0, commitSwap s w)

/-- A late swap is discarded under SKIP_LATE, or its own pool entry `i` was cancelled (R195, R196). -/
def discardSwap (s : State) (i n ident : Nat) (skipped : Bool) : State :=
  match findSwap s n ident with
  | none => s
  | some w =>
    if w.entry ≠ some i then s
    else
      let s := if skipped then bump s Pg.KVX 0x068 else s
      tellSwap (dropSwap s w) w 0

/-- An unpooled swap takes the pool entry that has become free before its T (R343). -/
def placeUnpooled (s : State) : State :=
  match poolEntries s, s.fratra.swaps.find? fun w => w.entry.isNone && decide (s.ft.ns < w.ns) with
  | p :: _, some w =>
    setEntry { s with fratra := { s.fratra with
      swaps := s.fratra.swaps.map fun v => if v = w then { w with entry := some p } else v } } p
      (swapEntry w.tenant w.ident w.ns w.skipLate)
  | _, _ => s

/-! ## Snapshot markers (R198) -/

/-- A SNAPSHOT action for tenant `n` with tag `m`, in the firing cycle: on the tenant's lead, or where it is not mirrored. -/
def doSnapshot (s : State) (n m : Nat) : State :=
  if s.mirrored n && !s.leads n then s
  else
    let value := ftNow s ++ beBytes 8 (s.ten n).verCtr ++ beBytes 8 (keyCount s n) ++ beBytes 4 0
    bump (commitPut s n ([0xFF, 0x53, 0x4E, 0x50] ++ beBytes 4 m) (.value value) s.ft.ns none).2 Pg.KVX 0x070

/-! ## The incident window (R201, R345) -/

def State.incTenant (s : State) : Nat := s.fld Pg.KVX Off.KVX_INC_CFG 13 8
def State.preNs (s : State) : Nat := s.fld Pg.KVX Off.KVX_INC_WIN 15 0 * 1000000000
def State.postNs (s : State) : Nat := s.fld Pg.KVX Off.KVX_INC_WIN 31 16 * 1000000000

/-- An incident event with time `t` acts on this twin. -/
def applyIncident (s : State) (n t : Nat) : State :=
  let lo : Int := (t : Int) - (s.preNs : Int)
  let hi := t + s.postNs
  let w := s.fratra.incident
  let s := bump s Pg.KVX 0x058
  let s := { s with fratra := { s.fratra with incident :=
      { openNow := true, tenant := n, startNs := if w.openNow then min w.startNs lo else lo, endNs := hi
        events := (w.events + 1) % 65536 } } }
  let s := (s.ten n).keys.foldl (fun s e => if spanMeets e lo hi then incidentHold s n e else s) s
  if w.openNow then s else setFlag s Pg.KVX 0

/-- An event with time `t` reaches the incident input (R201): ignored with EN = 0; in the pair the follower sends it on
(R345). -/
def incidentAt (s : State) (t : Nat) : State :=
  if !s.bit Pg.KVX Off.KVX_INC_CFG 0 then s
  else
    let n := s.incTenant
    if s.mirrored n && !s.leads n && s.acd.pair = .paired then
      onAcd s fun a => { a with out := a.out ++ [.incident n t] }
    else applyIncident s n t

/-- INCIDENT_EVENT: the event arrives in RUN, at the present Fleet Time (R201). -/
def doIncidentEvent (s : State) : State := if s.inRun then incidentAt s s.ft.ns else s

/-- The window closes (R201). -/
def doIncClose (s : State) : State :=
  if s.fratra.incident.openNow then
    setFlag { s with fratra := { s.fratra with incident := { s.fratra.incident with openNow := false } } } Pg.KVX 1
  else s

/-! ## Tenant reset and purge (R228 to R232) -/

/-- A tenant reset starts (R228 steps 1 to 5). -/
def startTenantReset (s : State) (n : Nat) : State :=
  if (s.ten n).rstBusy then s
  else
    let s := bump (onTen s n fun t => { t with rstBusy := true }) (Pg.TEN n) 0x088
    abortOps (fun o => decide (o.id.tenant = n)) s

/-- A frame in a receive queue that is tenant `n`'s: it names the tenant on the tenant's VID. -/
def queuedFor (s : State) (k n : Nat) (f : RxFrame) : Bool :=
  let i := s.readHead k f.bytes
  i.tenant = n && decide (s.tenVid n = i.vid.getD 0)

/-- Discard a tenant's frames in one queue of one port (R228 step 4). -/
def purgeQueue (n : Nat) (s : State) (kq : Nat × Nat) : State :=
  let (k, q) := kq
  let role := s.queueRole k q
  if 1 ≤ role ∧ role ≤ 3 then
    let l := storeLook (s.port k).queues q []
    let keep := l.filter fun f => !queuedFor s k n f
    if keep.length = l.length then s
    else xoffUpdate (onPort s k fun p => { p with queues := storePut p.queues q [] keep }) k q
  else s

/-- The end of a tenant reset (R228 steps 4, 6 and 7, R229). -/
def doResetDone (n : Nat) (s : State) : State :=
  if !(s.ten n).rstBusy then s
  else
    let s := abortOps (fun o => decide (o.id.tenant = n)) s
    let s := ((List.range 4).flatMap fun k => (List.range 16).map fun q => (k, q)).foldl (purgeQueue n) s
    let s := { s with fratra := { s.fratra with streams := s.fratra.streams.filter fun c => decide (c.id.tenant ≠ n) } }
    -- an owed NOTIFY of a page that the tenant owns is discarded; its set waits for the next set or expiry (Table 3.19)
    let s := s.holdoffs.foldl (fun s e =>
      if e.1 % 4 = 0 && s.fld (e.1 / 4) Off.PAGE_OWNER 5 0 = n then
        { s with holdoffs := storePut s.holdoffs e.1 {} { e.2 with owed := false } }
      else s) s
    let s := onTen (clearDeficits s n) n fun t => { t with rstBusy := false, tokens := [] }
    setFlag s (Pg.TEN n) 0

/-- The end of a purge (R232): every key removed without version or NOTIFY, staged swaps cancelled, slot zeroized with
ENC = 1. -/
def doPurgeDone (n : Nat) (s : State) : State :=
  if !(s.ten n).purgeBusy then s
  else
    let s := (s.ten n).keys.foldl (fun s e => eraseKey s n e) s
    let s := s.fratra.swaps.foldl (fun s w =>
      if w.tenant = n then
        let s := dropSwap s w
        match w.entry with
        | some p => setEntry s p { s.entry p with status := .cancelled }
        | none => s
      else s) s
    let s := if s.bit (Pg.TEN n) Off.TEN_TEN_CFG 7 then onSec s fun c => { c with slots := storeErase c.slots n } else s
    let s := onTen s n fun t => { t with aesKcv := 0, keyHold := false, purgeBusy := false }
    setFlag s (Pg.TEN n) 10

/-- A purge starts (R232). -/
def startPurge (s : State) (n : Nat) : State := onTen s n fun t => { t with purgeBusy := true }

/-- The key that stood in slot `n` when the tenant's key count rose from 0 stands there. DEDUCED (log 78): a tenant with
ENC = 0 whose slot held no key then is not held while it holds none. -/
def keyStands (s : State) (n : Nat) : Bool :=
  decide (s.slotKcv n = (s.ten n).aesKcv) &&
    ((s.slotKey n).isSome || (!s.bit (Pg.TEN n) Off.TEN_TEN_CFG 7 && (s.ten n).aesKcv = 0))

/-- The check of R231 on slot `n`: the encryption hold begins or ends. -/
def keyHoldCheck (s : State) (n : Nat) : State :=
  if (s.ten n).keys.isEmpty then s else onTen s n fun t => { t with keyHold := !keyStands s n }

/-! ## The commands -/

def execArrival (s : State) : Host.Outcome State Fault Refusal := done (doArrival s)
def execProgressResponse (stream : StreamId) (s : State) : Host.Outcome State Fault Refusal :=
  done (doProgressResponse s stream)
def execStreamIdle (stream : StreamId) (s : State) : Host.Outcome State Fault Refusal := done (doStreamIdle s stream)
def execGet (op : Nat) (s : State) : Host.Outcome State Fault Refusal := done (doGet op s)
def execGetRange (op : Nat) (s : State) : Host.Outcome State Fault Refusal := done (doGetRange op s)
def execPut (op : Nat) (s : State) : Host.Outcome State Fault Refusal := done (doPut op s)
def execPutIfAbsent (op : Nat) (s : State) : Host.Outcome State Fault Refusal := done (doPutIfAbsent op s)
def execAppend (op : Nat) (s : State) : Host.Outcome State Fault Refusal := done (doAppend op s)
def execCas (op : Nat) (s : State) : Host.Outcome State Fault Refusal := done (doCas op s)
def execDelete (op : Nat) (s : State) : Host.Outcome State Fault Refusal := done (doDelete op s)
def execHold (op : Nat) (s : State) : Host.Outcome State Fault Refusal := done (doHold op s)
def execRelease (op : Nat) (s : State) : Host.Outcome State Fault Refusal := done (doRelease op s)
def execAliasSet (op : Nat) (s : State) : Host.Outcome State Fault Refusal := done (doAliasSet op s)
def execAliasSwapAt (op : Nat) (s : State) : Host.Outcome State Fault Refusal := done (doAliasSwapAt op s)
def execScan (op : Nat) (s : State) : Host.Outcome State Fault Refusal := done (doScan op s)
def execStat (op : Nat) (s : State) : Host.Outcome State Fault Refusal := done (doStat op s)
def execFlush (op : Nat) (s : State) : Host.Outcome State Fault Refusal := done (doFlush op s)
def execIncidentEvent (s : State) : Host.Outcome State Fault Refusal := done (doIncidentEvent s)
def execIncClose (s : State) : Host.Outcome State Fault Refusal := done (doIncClose s)
def execResetDone (tenant : Nat) (s : State) : Host.Outcome State Fault Refusal := done (doResetDone tenant s)
def execPurgeDone (tenant : Nat) (s : State) : Host.Outcome State Fault Refusal := done (doPurgeDone tenant s)

end Sys2Proof.Machine
end

