-- ==== Sys2Proof/Machine/Journal.lean ====
section
/-! DEFINITION. Machine/Journal.lean: the system blocks: LUN records (R241, R242) and the journal pool (R243, R280). -/

namespace Sys2Proof.Machine

/-! ## LUN records (Table 9.3) -/

/-- The LUN records that a format writes: a LUN that carries an image copy names its first block. -/
def writeRecord (s : State) (n : Nat) : State :=
  onLun s n fun l =>
    { l with record := some { part := l.part, good := l.good, serial := Config.serial, format := s.ftl.formats
                              image := if n = 0 ∨ n = 32 then some 1 else none } }

/-- The population is formatted: every LUN of the rotation order takes its record. -/
def formatPopulation (s : State) : State :=
  let s := { s with ftl := { s.ftl with formatted := true, formats := s.ftl.formats + 1 } }
  (rotation s).foldl writeRecord s

/-- The good-block index of a data block: after the system and the Harvest blocks (R241). -/
def goodIndex (s : State) (b : Nat) : Nat := 16 + s.ftl.hrvBlk + b

/-! ## The journal pool -/

/-- The good blocks of a LUN in the journal pool (Table 9.3). -/
def journalBlocks (lun : Nat) : List Nat := if lun = 0 ∨ lun = 32 then List.range' 9 7 else List.range' 1 15

/-- The journal block of a LUN at a turn of the rotation over `n` LUNs: every LUN once, then the next block of each. -/
def journalAt (n turn lun : Nat) : Nat × Nat :=
  let bs := journalBlocks lun
  (lun, bs.getD (turn / max n 1 % bs.length) 9)

/-- Where the next record goes: the LUN whose turn it is, and the first after it on another channel (R280). -/
def journalPlaces (s : State) : List (Nat × Nat) :=
  let r := rotation s
  let k := s.ftl.pool.turn % max r.length 1
  match r.drop k ++ r.take k with
  | [] => []
  | a :: rest =>
    (a :: (rest.find? fun n => decide (lunChan n ≠ lunChan a)).toList).map (journalAt r.length s.ftl.pool.turn)

def onPool (s : State) (f : JournalPool → JournalPool) : State := { s with ftl := { s.ftl with pool := f s.ftl.pool } }

/-- Write a record to the journal pool. -/
def journalPut (s : State) (r : JournalRec) : State :=
  let at_ := journalPlaces s
  onPool s fun p => { entries := p.entries ++ [{ record := r, copies := at_ }], turn := p.turn + 1 }

/-- Write a checkpoint with its record: what the journal held before it is superseded. -/
def journalCheckpoint (s : State) (r : JournalRec) : State := journalPut (onPool s fun p => { p with entries := [] }) r

/-- The records with a copy in a journal block. DESIGN CHOICE (log 134): each fills one page of it. -/
def journalHolds (s : State) (lun b : Nat) : Nat :=
  (s.ftl.pool.entries.filter fun e => e.copies.contains (lun, b)).length

/-- Rewrite what a journal block holds into the pool, and erase the block under an intent (R273, R312). DESIGN CHOICE
(log 134): in one step. -/
def rewriteJournal (s : State) (lun b : Nat) : State :=
  let (here, rest) := s.ftl.pool.entries.partition fun e => e.copies.contains (lun, b)
  let s := here.foldl (fun s e => journalPut s e.record) (onPool s fun p => { p with entries := rest })
  let e := s.hrv.esn + 1
  let s := journalPut (onHrv s fun h => { h with esn := e }) (.intent lun b e)
  let s := bump s (Pg.NCH (lunChan lun)) 0x050
  journalPut (onLun s lun fun l => { l with jreads := storeErase l.jreads b }) (.erased lun b e)

end Sys2Proof.Machine
end

