-- ==== Sys2Proof/Machine/Blocks.lean ====
section
/-! DEFINITION. Machine/Blocks.lean: data blocks (R241, R276), placement and the die queue (R221, R254, R255), programs
(R278), and write-back (R249, R250, R252, R253). -/

namespace Sys2Proof.Machine

/-! ## Counters and capacity -/

/-- The NCH page of a LUN. -/
def nchPage (lun : Nat) : Nat := Pg.NCH (lunChan lun)

def setChan (s : State) (c : Nat) (f : ChanState → ChanState) : State :=
  { s with ftl := { s.ftl with chans := storeModify s.ftl.chans c {} f } }
def State.chan (s : State) (c : Nat) : ChanState := storeLook s.ftl.chans c {}

/-- The LUN's channel trains: new commands wait in the LUN's queue (R239). -/
def lunTraining (s : State) (lun : Nat) : Bool := (s.chan (lunChan lun)).training

/-- USABLE is computed again; CAP_CHANGE is set when it falls (R244). -/
def capUpdate (s : State) : State :=
  let u := usable s
  let s := if u < s.ftl.usable then setFlag s Pg.FTL 4 else s
  { s with ftl := { s.ftl with usable := u } }

/-! ## Data blocks (R241, R276) -/

/-- The free data block that R276 gives: the lowest erase count, or with `worn` the highest; ties to the lowest block. -/
def pickFree (s : State) (l : Lun) (worn : Bool) : Option Nat :=
  ((List.range (dataBlocks s l)).filter fun b => (storeFind l.blocks b).isNone).foldl
    (fun best b =>
      match best with
      | none => some b
      | some c =>
        let eb := storeLook l.eraseCnt b 0
        let ec := storeLook l.eraseCnt c 0
        if (if worn then ec < eb else eb < ec) then some b else best) none

/-- The open block of a kind (1 sheaf, 2 grain, 3 gleaning destination). -/
def openBlock (l : Lun) (kind : Nat) : Option (Nat × FlashBlock) :=
  l.blocks.find? fun b => b.2.use = 1 && b.2.kind = kind

def onBlock (s : State) (lun b : Nat) (f : FlashBlock → FlashBlock) : State :=
  onLun s lun fun l =>
    match storeFind l.blocks b with
    | some x => { l with blocks := storeInsert l.blocks b (f x) }
    | none => l

/-- Close an open block (R262 measures its age from here). -/
def closeBlock (s : State) (lun b : Nat) : State :=
  onBlock s lun b fun x => { x with use := 2, closedNs := s.ft.ns }

/-- Open a free block of a kind, with its header's ESN (R276, R311); none where the LUN has no free block. -/
def openFresh (s : State) (lun kind : Nat) : Option Nat × State :=
  let l := s.lun lun
  match pickFree s l (kind = 3 && l.wearPending) with
  | none => (none, s)
  | some b =>
    (some b, upkeepUpdate (onLun s lun fun l =>
      { l with blocks := storeInsert l.blocks b { use := 1, kind := kind, esn := storeLook l.freeEsn b 0 } }) lun)

/-- The block of a kind with room for `n` grains, opened if need be; a full one is closed. -/
def blockFor (s : State) (lun kind n : Nat) : Option Nat × State :=
  let cap := blockGrains (s.lun lun).part
  match openBlock (s.lun lun) kind with
  | some (b, x) => if x.refs.length + n ≤ cap then (some b, s) else openFresh (closeBlock s lun b) lun kind
  | none => openFresh s lun kind

/-- Put grains into a block: the position of the first; the block closes when it is full. -/
def appendRefs (s : State) (lun b : Nat) (refs : List GrainRef) : Nat × State :=
  let pos := ((storeFind (s.lun lun).blocks b).map fun x => x.refs.length).getD 0
  let s := onBlock s lun b fun x => { x with refs := x.refs ++ refs }
  (pos, if blockGrains (s.lun lun).part ≤ pos + refs.length then closeBlock s lun b else s)

/-- A program is in flight to a block: it is neither a victim nor erased yet (R262, R264). -/
def programming (s : State) (lun b : Nat) : Bool := s.ftl.progs.any fun p => decide (p.2.lun = lun ∧ p.2.block = b)

/-! ## Placement (R254, R255, R261) -/

/-- Why a program is placed: write-back whose time has come, a program placed again after a failure, the flush of a settle or a
recovery, or a fold. -/
inductive Placing where
  | due | again | flush | fold
  deriving DecidableEq, Repr

/-- The program may take the reserve: a fold's, and the flush's with every LUN at FLOOR, which has to write everything (R113,
R261). DESIGN CHOICE (log 133). -/
def takesReserve (s : State) (why : Placing) : Bool := why = .fold || (why = .flush && allFloor s)

/-- The LUN takes a program of `n` grains: in the order, not at FLOOR unless the reserve may be taken, and with a block for it
(R254, R261). -/
def takesProgram (s : State) (why : Placing) (kind n lun : Nat) : Bool :=
  let l := s.lun lun
  lunInOrder l && (takesReserve s why || l.upkeep ≠ 3) &&
    (decide (0 < freeBlocks s l) ||
      match openBlock l kind with
      | some (_, x) => decide (x.refs.length + n ≤ blockGrains l.part)
      | none => false)

/-- The LUN at rotation position `p`, or at the next position in order that takes the program (R254). -/
def lunAt (s : State) (p : Nat) (ok : Nat → Bool) : Option Nat :=
  let r := rotation s
  let k := if r.length = 0 then 0 else p % r.length
  (r.drop k ++ r.take k).find? ok

/-- Grains of one program unit of a LUN: one page on every plane (R255). -/
def unitGrains (p : Part) : Nat := max 1 (p.planes * p.pageKib / 4)

/-- Grains of the next program of single grains to a LUN: a unit, as far as the open block has room for it. -/
def unitRoom (s : State) (lun : Nat) : Nat :=
  let used := ((openBlock (s.lun lun) 2).map fun b => b.2.refs.length).getD 0
  let cap := blockGrains (s.lun lun).part
  min (unitGrains (s.lun lun).part) (if used < cap then cap - used else cap)

/-! ## What is due (R253) -/

/-- The dirty grains of a sheaf that no program in progress is already writing. -/
def dirtyIdle (s : State) (h : Nat) : List Nat :=
  let x := s.sheaf h
  let busy := s.ftl.progs.flatMap fun p =>
    if p.2.fold.isSome then []
    else ((p.2.refs.zip p.2.stamps).filter fun rs =>
      rs.1.sheaf = h && storeFind x.dirty rs.1.grain = some rs.2).map fun rs => rs.1.grain
  (storeKeys x.dirty).filter fun g => !busy.contains g

/-- The write number of the oldest grain that waits in a sheaf. -/
def oldestDirty (s : State) (h : Nat) : Option Nat :=
  ((dirtyIdle s h).map fun g => storeLook (s.sheaf h).dirty g 0).min?

/-- No other sheaf holds older dirty data that waits. -/
def oldestSheaf (s : State) (h : Nat) : Bool :=
  match oldestDirty s h with
  | none => false
  | some w => s.ftl.sheaves.all fun e => match oldestDirty s e.1 with
    | none => true
    | some v => decide (w ≤ v)

/-- The grains of a whole sheaf are all in the buffer and none is in flash yet. -/
def wholeReady (s : State) (h : Nat) : Bool :=
  (s.sheaf h).whole && (s.sheaf h).mapping = 0 && (dirtyIdle s h).length = 256

/-- A dirty grain has been in the buffer for WB_AGE_MS. -/
def agedDirty (s : State) (h : Nat) : Bool :=
  (dirtyIdle s h).any fun g =>
    decide (storeLook (s.sheaf h).since g 0 + s.fld Pg.FTL Off.FTL_WB_CFG 15 0 * 50000 ≤ s.hub.tick)

/-- Dirty bytes exceed WB_HIGH_PCT of the effective Harvest budget. -/
def wbHigh (s : State) : Bool := decide (s.fld Pg.FTL Off.FTL_WB_CFG 23 16 * bEff s < 100 * dirtyBytes s)

/-- Write-back of a sheaf is due (R253). -/
def writeDue (s : State) (h : Nat) : Bool := wholeReady s h || agedDirty s h || (wbHigh s && oldestSheaf s h)

/-- Free slots for a grain region, and the grain-map limit (R252). -/
def regionFits (s : State) : Bool := decide (43 ≤ slotsFree s) && decide (gmapBytes s + 2064 ≤ gmapLimit s)

/-- Partial updates of a sheaf within the window, this one included (R250). -/
def promoteWindowNs (s : State) : Nat := s.fld Pg.FTL Off.FTL_MAP_CFG 15 8 * 1000000000
def recentPartials (s : State) (x : Sheaf) : List Nat :=
  s.ft.ns :: x.partials.filter fun t => decide (s.ft.ns ≤ t + promoteWindowNs s)

/-- A partial update of a SHEAF sheaf within PROMOTE_THRESH: a rewrite (R250). -/
def rewrites (s : State) (h : Nat) : Bool :=
  decide ((recentPartials s (s.sheaf h)).length ≤ s.fld Pg.FTL Off.FTL_MAP_CFG 7 0)

/-- Write-back of a sheaf programs a slot: its first one, a whole one again, or a rewrite (R249, R250, R252). -/
def writesSlot (s : State) (h : Nat) : Bool :=
  wholeReady s h ||
    ((s.sheaf h).mapping = 1 && (decide (256 ≤ (dirtyIdle s h).length) || rewrites s h || !regionFits s))

/-! ## The die queue (R220 to R223) -/

/-- The LUN of a sheaf's next program by write-back, and the bytes of it. -/
def nextProgram (s : State) (why : Placing) (h : Nat) : Option (Nat × Nat) :=
  if writesSlot s h then (lunAt s (s.sheaf h).rot (takesProgram s why 1 256)).map (·, 1048576)
  else (lunAt s s.ftl.grainPtr (takesProgram s why 2 1)).map fun n => (n, 4096 * min (unitRoom s n) (dirtyIdle s h).length)

/-- A sheaf's slot moves whole: it has no dead grain, or no region can be had for it (R252, R263). -/
def movesSlot (s : State) (h : Nat) : Bool :=
  (s.sheaf h).mapping = 1 && ((s.sheaf h).dead.isEmpty || !regionFits s)

/-- The grain still belongs to a key. -/
def grainLive (s : State) (r : GrainRef) : Bool :=
  let x := s.sheaf r.sheaf
  decide (r.grain < x.alloc) && !x.dead.contains r.grain && decide (x ≠ noSheaf)

/-- A unit of a move is still where the move takes it from (R263). -/
def unitThere (s : State) (lun : Nat) (m : MoveTask) (r : GrainRef) : Bool :=
  grainLive s r && match grainLoc (s.sheaf r.sheaf) r.grain with
    | some l => decide (l.lun = lun ∧ l.block = m.src)
    | none => false

/-- Upkeep runs: in RUN, until step 3 of a settle (R264, Table 4.9). -/
def upkeepRuns (s : State) : Bool :=
  s.inRun && match s.pwr.settle with
    | some t => !t.drained
    | none => true

/-- FTL EN = 0 pauses gleaning in IDLE and BACKGROUND, folds, wear levelling and patrol (Table 3.20). -/
def kindPaused (s : State) (lun kind : Nat) : Bool :=
  !s.en Pg.FTL && (decide (4 ≤ kind) || (kind = 3 && decide ((s.lun lun).upkeep ≤ 1)))

/-- The next unit of the move that a LUN serves: its kind and the bytes that it moves. -/
def moveUnit (s : State) (lun : Nat) : Option (Nat × Nat) :=
  match (s.lun lun).move with
  | none => none
  | some m =>
    match m.left with
    | [] => none
    | r :: _ =>
      if kindPaused s lun m.kind || !unitThere s lun m r then none
      else some (m.kind, if movesSlot s r.sheaf then 1048576 else 4096)

/-- The fold of a sheaf is due (R251): GRAIN, closed, nothing dirty, cool, enough grains live, none under way. -/
def foldDue (s : State) (h : Nat) : Bool :=
  let x := s.sheaf h
  x.mapping = 2 && sheafClosed x && x.dirty.isEmpty && x.folding.isNone &&
    decide (s.fld Pg.FTL Off.FTL_MAP_CFG 24 16 ≤ 256 - x.dead.length) &&
    decide (x.lastWrite + s.fld Pg.FTL Off.FTL_COOL_CFG 15 0 * 1000000000 ≤ s.ft.ns)

/-- The LUN on which a fold would place its slot (R254). -/
def foldLun (s : State) (h : Nat) : Option Nat :=
  lunAt s (s.ten (s.sheaf h).tenant).rotPtr (takesProgram s .fold 1 256)

/-- The unit of upkeep that is first at a LUN's die queue, by the order of kinds (R260). -/
def upkeepFirst (s : State) (lun : Nat) : Option (Nat × Nat) :=
  if !upkeepRuns s || lunTraining s lun then none
  else
    let fold := !kindPaused s lun 4 && s.ftl.sheaves.any fun e => foldDue s e.1 && foldLun s e.1 = some lun
    match moveUnit s lun with
    | some (kind, cost) => if kind = 5 && fold then some (4, 1048576) else some (kind, cost)
    | none => if fold then some (4, 1048576) else none

/-- The upkeep state by which a kind is served: URGENT for relocation and refresh, the LUN's own for the others (R274). -/
def upkeepRank (s : State) (lun kind : Nat) : Nat := if kind ≤ 2 then 2 else (s.lun lun).upkeep

/-- The tenants backlogged at a LUN, each with the cost of its next unit: `own`, and those with write-back due there. -/
def dieTenants (s : State) (lun : Nat) (own : Option (Nat × Nat)) : List Backlog :=
  let due := s.ftl.sheaves.filterMap fun e =>
    if writeDue s e.1 then
      match nextProgram s .due e.1 with
      | some (m, c) => if m = lun then some (e.2.tenant, c) else none
      | none => none
    else none
  let units := own.toList ++ due
  ((units.map Prod.fst).foldl setAdd []).map fun t =>
    { tenant := t, note := s.schedNote t, cost := storeLook units t 0 }

/-- A Top tenant with tokens is backlogged. -/
def topWaits (s : State) (bl : List Backlog) : Bool :=
  bl.any fun b => b.note = 0 && decide (0 < s.tokensOf b.tenant 1)

/-- The selection at a LUN's die queue (R221, Table 9.8): upkeep (note 3) after every tenant in IDLE, in the round after
Heart and Base in BACKGROUND, before them in URGENT, and before every tenant at FLOOR. DESIGN CHOICE (log 132): reads and DRAM
units, each a command of one step, are served alone. -/
def dieSelect (s : State) (lun : Nat) (own upkeep : Option (Nat × Nat)) : Option (Backlog × Bool) × Drr :=
  let ts := dieTenants s lun own
  let d := (s.lun lun).drr
  let tenants := selectUnit s 1 ts (pruneDrr ts d)
  match upkeep with
  | none => tenants
  | some (kind, cost) =>
    let u : Backlog := { tenant := 64, note := 3, cost := cost }
    let rank := upkeepRank s lun kind
    if rank = 1 then selectUnit s 1 (ts ++ [u]) (pruneDrr (ts ++ [u]) d)
    else if (rank = 0 && !ts.isEmpty) || (rank = 2 && topWaits s ts) then tenants
    else (some (u, false), d)

/-- The LUN's die queue selects tenant `n` for a unit of `cost` bytes: the machine with the selection made and charged; none
where it selects another. What no tenant's backlog orders is placed without a selection (R220). -/
def dieTurn (s : State) (why : Placing) (lun n cost : Nat) : Option State :=
  if why = .due then
    match dieSelect s lun (some (n, cost)) (upkeepFirst s lun) with
    | (some (b, idle), d) =>
      if b.tenant = n ∧ b.note ≠ 3 then some (chargeUnit (onLun s lun fun l => { l with drr := d }) 1 b idle) else none
    | (none, _) => none
  else some s

/-- The LUN's die queue selects upkeep for a unit of a kind and of so many bytes: the machine with the selection made. -/
def upkeepTurn (s : State) (lun : Nat) (u : Nat × Nat) : Option State :=
  match dieSelect s lun none (some u) with
  | (some (b, _), d) => if b.note = 3 then some (onLun s lun fun l => { l with drr := d }) else none
  | (none, _) => none

/-- The turn of the next unit of a LUN's move, where no upkeep goes before it. -/
def switchTurn (s : State) (lun : Nat) (m : MoveTask) : Option State :=
  match upkeepFirst s lun with
  | some u => if u.1 = m.kind then upkeepTurn s lun u else none
  | none => none

/-! ## Programs (R253 to R255, R278) -/

/-- Grains that a program has taken no longer wait. -/
def takeWaiting (s : State) (refs : List GrainRef) : State :=
  match refs with
  | [] => s
  | r :: _ =>
    onSheaf s r.sheaf fun x => { x with since := x.since.filter fun e => !refs.any fun q => decide (q.grain = e.1) }

/-- Start a program of `refs`, grains of one sheaf, on a LUN; nothing where it has no block for them. -/
def startProg (s : State) (lun kind : Nat) (refs : List GrainRef) (slotOf fold : Option Nat) : Option State :=
  match blockFor s lun kind refs.length with
  | (none, _) => none
  | (some b, s) =>
    let (pos, s) := appendRefs s lun b refs
    let p : Prog :=
      { lun := lun, block := b, pos := pos, refs := refs, slotOf := slotOf, fold := fold, held := lunTraining s lun
        stamps := refs.map fun r => storeLook (s.sheaf r.sheaf).dirty r.grain 0 }
    let s := if fold.isSome then s else takeWaiting s refs
    some { s with ftl := { s.ftl with progs := storeInsert s.ftl.progs s.ftl.nextProg p, nextProg := s.ftl.nextProg + 1 } }

/-- The grains of a whole slot. -/
def slotRefs (h : Nat) : List GrainRef := (List.range 256).map fun g => ({ sheaf := h, grain := g } : GrainRef)

/-- Program a whole slot of a sheaf from rotation position `p` on. -/
def programSlot (s : State) (why : Placing) (h p : Nat) (fold : Option Nat) : State :=
  match lunAt s p (takesProgram s why 1 256) with
  | none => s
  | some lun =>
    match dieTurn s why lun (s.sheaf h).tenant 1048576 with
    | none => s
    | some t => (startProg t lun 1 (slotRefs h) (some h) fold).getD s

/-- Program single grains by the device-wide grain pointer, one unit to a position (R255); `fuel` bounds the units. -/
def programGrains : Nat → Placing → State → Nat → List Nat → State
  | 0, _, s, _, _ => s
  | _ + 1, _, s, _, [] => s
  | fuel + 1, why, s, h, gs =>
    match lunAt s s.ftl.grainPtr (takesProgram s why 2 1) with
    | none => s
    | some lun =>
      let unit := gs.take (unitRoom s lun)
      match dieTurn s why lun (s.sheaf h).tenant (4096 * unit.length) with
      | none => s
      | some t =>
        match startProg t lun 2 (unit.map fun g => ({ sheaf := h, grain := g } : GrainRef)) none none with
        | none => s
        | some t =>
          let r := rotation t
          let at_ := (r.findIdx? (fun n => decide (n = lun))).getD 0
          programGrains fuel why
            { t with ftl := { t.ftl with grainPtr := if r.length = 0 then 0 else (at_ + 1) % r.length } } h (gs.drop unit.length)

/-- A sheaf becomes GRAIN: its live grains keep their places in the old slot, if it had one (R249, R250); its region has a
durable copy (R257). -/
def makeGrain (s : State) (h : Nat) : State :=
  let fits := regionFits s
  journalPut (onSheaf s h fun x =>
    let grains := match x.slot with
      | some l => (List.range 256).foldl (fun m g =>
          if g < x.alloc && !x.dead.contains g then storeInsert m g { l with pos := l.pos + g } else m) []
      | none => []
    { x with mapping := 2, slot := none, grains := grains, resident := fits, access := s.ftl.writeSeq, partials := [] })
    (.region h)

/-- Count a partial update of a SHEAF sheaf (R250): a rewrite, a demotion, or a rewrite for a demotion refused (R252). -/
def countPartial (s : State) (h : Nat) : State :=
  let recent := recentPartials s (s.sheaf h)
  let t := onSheaf s h fun x => { x with partials := recent }
  if rewrites s h then bump t Pg.FTL 0x050
  else if regionFits s then bump t Pg.FTL 0x058
  else bump (bump t Pg.FTL 0x068) Pg.FTL 0x050

/-- Write back a sheaf's waiting dirty grains: a whole slot, a rewrite, a demotion or single grains (R249, R250, R253). A
sheaf that the die queue or the LUNs do not take now stays as it is. -/
def writeBack (why : Placing) (h : Nat) (s : State) : State :=
  let gs := dirtyIdle s h
  let x := s.sheaf h
  if gs.isEmpty then s
  else
    match nextProgram s why h with
    | none => s
    | some (lun, cost) =>
      if (dieTurn s why lun x.tenant cost).isNone then s
      else
        let slot := writesSlot s h
        let s := if x.mapping = 1 && gs.length < 256 then countPartial s h else s
        if slot then programSlot s why h x.rot none
        else programGrains 256 why (if x.mapping = 2 then touchRegion s h else makeGrain s h) h gs

/-- WRITE_BACK of a logical sheaf whose write-back is due, in RUN. Write-back has stopped while every LUN is at FLOOR
(R261). -/
def doWriteBack (h : Nat) (s : State) : State :=
  if s.inRun && !allFloor s && writeDue s h then writeBack .due h s else s

/-- Release the write-buffer bytes of a programmed grain, unless a newer write has made it dirty again (R278). -/
def releaseGrain (s : State) (rs : GrainRef × Nat) : State :=
  onSheaf s rs.1.sheaf fun x =>
    if storeFind x.dirty rs.1.grain = some rs.2 then { x with dirty := storeErase x.dirty rs.1.grain } else x

/-- A fold's slot is in place: the map entry moves to it, unless a write or another move abandoned the fold (R251, R263). -/
def landFold (s : State) (p : Prog) (h : Nat) (loc : Loc) : State :=
  if p.fold.isSome ∧ (s.sheaf h).folding = p.fold then
    bump (onSheaf s h fun x =>
      { x with mapping := 1, slot := some loc, grains := [], resident := false, folding := none, partials := [] }) Pg.FTL 0x060
  else s

/-- A sheaf's slot is in place: the map entry moves to it, unless the sheaf became GRAIN meanwhile. -/
def landSlot (s : State) (p : Prog) (h : Nat) (loc : Loc) : State :=
  let x := s.sheaf h
  if x = noSheaf ∨ x.mapping = 2 then s
  else
    (p.refs.zip p.stamps).foldl releaseGrain (onSheaf s h fun x => { x with mapping := 1, slot := some loc })

/-- Single grains are in place: the entries of those still live move to them (R249). -/
def landGrains (s : State) (p : Prog) (loc : Loc) : State :=
  ((p.refs.zip p.stamps).foldl (fun (acc : Nat × State) rs =>
    let (i, s) := acc
    (i + 1, if grainLive s rs.1 then
        releaseGrain (onSheaf s rs.1.sheaf fun x =>
          if x.mapping = 2 then { x with grains := storeInsert x.grains rs.1.grain { loc with pos := p.pos + i } } else x) rs
      else s)) (0, s)).2

/-- A successful program: the map entries move to it, and its bytes leave the write buffer (R249, R253, R278). -/
def landProg (s : State) (p : Prog) : State :=
  let bytes := 4096 * p.refs.length
  let s := bumpBy s Pg.FTL 0x048 bytes
  let s := bumpBy (bump s (nchPage p.lun) 0x048) (nchPage p.lun) 0x060 bytes
  let s := onLun s p.lun fun l => { l with failRun := [], timeouts := 0 }
  let loc : Loc := { lun := p.lun, block := p.block, pos := p.pos }
  match p.slotOf with
  | some h => if p.fold.isSome then landFold s p h loc else landSlot (bumpBy s Pg.FTL 0x040 bytes) p h loc
  | none => landGrains (bumpBy s Pg.FTL 0x040 bytes) p loc

def dropProg (s : State) (n : Nat) : State := { s with ftl := { s.ftl with progs := storeErase s.ftl.progs n } }

/-- PROGRAM_DONE (R278); a program that waits in the queue of a LUN whose channel trains has not run (R239). -/
def doProgramDone (n : Nat) (s : State) : State :=
  match storeFind s.ftl.progs n with
  | none => s
  | some p => if p.held then s else landProg (dropProg s n) p

/-- Place the data of a program again on another LUN (R278, R284). -/
def placeAgain (s : State) (p : Prog) : State :=
  match p.slotOf with
  | some h => programSlot s (if p.fold.isSome then .fold else .again) h (s.sheaf h).rot p.fold
  | none =>
    match p.refs with
    | [] => s
    | r :: _ => programGrains 256 .again s r.sheaf (p.refs.map GrainRef.grain)

/-! ## Writing everything back (settle step 4, recovery stage 6) -/

/-- One pass: every sheaf with dirty data is written back, and every program completes. -/
def flushPass (s : State) : State :=
  let s := (storeKeys (s.ftl.sheaves.filter fun e => !e.2.dirty.isEmpty)).foldl (fun s h => writeBack .flush h s) s
  (storeKeys s.ftl.progs).foldl (fun s n => match storeFind s.ftl.progs n with
    | none => s
    | some p => landProg (dropProg s n) p) s

/-- Every dirty buffer goes to its ordinary location: at most `n` passes. -/
def flushAll : Nat → State → State
  | 0, s => s
  | n + 1, s => if dirtyBytes s = 0 ∧ s.ftl.progs.isEmpty then s else flushAll n (flushPass s)

end Sys2Proof.Machine
end

