-- ==== Sys2Proof/Machine/Upkeep.lean ====
section
/-! DEFINITION. Machine/Upkeep.lean: upkeep of the dies: victims (R262), erases (R264, R312), die failure (R282 to R284),
relocation, refresh, gleaning and wear moves in their order (R260, R263, R273, R274, R277, R278), folds (R251). -/

namespace Sys2Proof.Machine

/-! ## Live data of a block (R262, R263) -/

/-- The grain at a position of a block is where its sheaf's map finds it. -/
def refLive (s : State) (lun b pos : Nat) (r : GrainRef) : Bool :=
  grainLive s r && grainLoc (s.sheaf r.sheaf) r.grain = some { lun := lun, block := b, pos := pos }

/-- The live grains of a block, in block order. -/
def blockLive (s : State) (lun b : Nat) : List GrainRef :=
  match storeFind (s.lun lun).blocks b with
  | none => []
  | some x => (x.refs.zipIdx.filter fun ri => refLive s lun b ri.2 ri.1).map Prod.fst

/-- The moves of a LUN, served and waiting. -/
def lunTasks (l : Lun) : List MoveTask := l.move.toList ++ l.moveQueue

/-- A closed block that a move may take as its source: no move, erase or program of it is under way. -/
def movable (s : State) (lun : Nat) (e : Nat × FlashBlock) : Bool :=
  let l := s.lun lun
  e.2.use = 2 && (storeFind l.erasing e.1).isNone && !(lunTasks l).any (fun t => decide (t.src = e.1)) &&
    !programming s lun e.1

/-- Hours since a block was closed, as a fraction capped at AGE_CAP_H: min(a, cap) over cap, both in ns. -/
def ageParts (s : State) (x : FlashBlock) : Nat × Nat :=
  let cap := s.fld Pg.FTL Off.FTL_GLEAN_SCORE 15 8 * 3600000000000
  (min (s.ft.ns - x.closedNs) cap, cap)

/-- The numerator of R262's score over the common denominator 4 × grains × cap. -/
def gleanScore (s : State) (lun b : Nat) (x : FlashBlock) : Nat :=
  let n := blockGrains (s.lun lun).part
  let (a, cap) := ageParts s x
  (n - (blockLive s lun b).length) * (4 * cap + s.fld Pg.FTL Off.FTL_GLEAN_SCORE 3 0 * a)

/-- The victim of R262: the closed block with the highest score, never one with every grain live; ties go low. -/
def gleanVictim (s : State) (lun : Nat) : Option Nat :=
  ((s.lun lun).blocks.foldl (fun (best : Option (Nat × Nat)) e =>
    if !movable s lun e then best
    else
      let sc := gleanScore s lun e.1 e.2
      if sc = 0 then best
      else match best with
        | none => some (e.1, sc)
        | some f => if f.2 < sc then some (e.1, sc) else best) none).map Prod.fst

/-! ## Erases (R264, R312) -/

/-- Start the erase of a block under a new intent (R312); while its channel trains it waits (R239). -/
def startErase (s : State) (lun b : Nat) : State :=
  let e := s.hrv.esn + 1
  let s := bump (onHrv s fun h => { h with esn := e }) (nchPage lun) 0x050
  let wait := lunTraining s lun
  onLun (journalPut s (.intent lun (goodIndex s b) e)) lun fun l =>
    { l with erasing := storeInsert l.erasing b e, refreshQ := l.refreshQ.filter (· ≠ b)
             heldErase := if wait then l.heldErase ++ [b] else l.heldErase }

/-- A LUN's wear move is pending when the spread exceeds WEAR_SPREAD, until it is half of that or less (R277). -/
def wearSpread (s : State) (l : Lun) : Nat :=
  let n := dataBlocks s l
  let counts := (List.range n).map fun b => storeLook l.eraseCnt b 0
  counts.foldl max 0 - counts.foldl min (counts.headD 0)

def wearCheck (s : State) (lun : Nat) : State :=
  let w := s.fld Pg.HLTH Off.HLTH_WEAR_CFG 12 0
  let sp := wearSpread s (s.lun lun)
  onLun s lun fun l =>
    { l with wearPending := s.bit Pg.HLTH Off.HLTH_WEAR_CFG 16 && (decide (w < sp) || (l.wearPending && decide (w / 2 < sp))) }

/-- An erase under intent `e` has succeeded: the block is free, with a completion record (R264, R312). -/
def eraseEnds (s : State) (lun b e : Nat) : State :=
  let s := onLun (journalPut s (.erased lun (goodIndex s b) e)) lun fun l =>
    { l with erasing := storeErase l.erasing b, blocks := storeErase l.blocks b, failRun := [], timeouts := 0
             heldErase := l.heldErase.filter (· ≠ b)
             eraseCnt := storePut l.eraseCnt b 0 (storeLook l.eraseCnt b 0 + 1)
             freeEsn := storePut l.freeEsn b 0 e }
  let s := onHealth s fun h =>
    { h with patrolRead := h.patrolRead.filter fun p => !decide (p.lun = lun ∧ p.journal = false ∧ p.block = b) }
  wearCheck (upkeepUpdate s lun) lun

/-- ERASE_DONE; an erase that waits in the queue of a LUN whose channel trains has not run (R239). -/
def doEraseDone (lun b : Nat) (s : State) : State :=
  match storeFind (s.lun lun).erasing b with
  | none => s
  | some e => if (s.lun lun).heldErase.contains b then s else eraseEnds s lun b e

/-! ## Die failure (R282 to R284) -/

/-- Programs in flight to a LUN are reissued elsewhere (R284). -/
def reissue (s : State) (np : Nat × Prog) : State := placeAgain (bump (dropProg s np.1) Pg.HLTH 0x078) np.2

/-- A die is declared failed (R283, R284). -/
def failDie (lun cause : Nat) (s : State) : State :=
  if !lunInOrder (s.lun lun) then s
  else
    let flying := s.ftl.progs.filter fun p => decide (p.2.lun = lun)
    let s := onLun s lun fun l =>
      { l with failed := true, move := none, moveQueue := [], refreshQ := [], erasing := [], heldErase := [], timeouts := 0 }
    let s := capUpdate (journalPut s (.failed lun))
    let s := overList reissue flying s
    let s := bump (onHealth s fun h => { h with failedDies := h.failedDies + 1 }) Pg.HLTH 0x058
    setFlag (openEvent s cause lun true).2 Pg.HLTH 0

/-- Causes 1 to 4 of Table 10.2 are judged in RUN only. -/
def failInRun (lun cause : Nat) (s : State) : State := if s.inRun then failDie lun cause s else s

/-- A program or erase failed on a block: 4 in a row on different blocks fail the die (Table 10.2 cause 3). -/
def noteFailure (lun b : Nat) (s : State) : State :=
  let s := onLun s lun fun l => { l with failRun := if l.failRun.contains b then l.failRun else l.failRun ++ [b] }
  if 4 ≤ (s.lun lun).failRun.length then failInRun lun 3 s else s

/-- A block is retired (R278, R279, R281). -/
def retireBlock (lun b : Nat) (s : State) : State :=
  let s := onLun (journalPut s (.retired lun (goodIndex s b))) lun fun l =>
    { l with blocks := storeModify l.blocks b { use := 3, kind := 1 } fun x => { x with use := 3 }
             refreshQ := l.refreshQ.filter (· ≠ b) }
  let s := onHealth s fun h => { h with grownBad := h.grownBad + 1 }
  capUpdate (upkeepUpdate (setFlag s Pg.HLTH 1) lun)

/-! ## The order of upkeep (R260, R274, R80) -/

/-- Blocks that wait for their refresh (R273). -/
def refreshNext (s : State) (lun : Nat) : Option Nat :=
  (s.lun lun).refreshQ.find? fun b => match storeFind (s.lun lun).blocks b with
    | some x => movable s lun (b, x)
    | none => false

/-- The closed data block with the lowest erase count: the source of a wear move (R277). -/
def wearSource (s : State) (lun : Nat) : Option Nat :=
  let l := s.lun lun
  (l.blocks.filter (movable s lun)).foldl
    (fun (best : Option Nat) e =>
      match best with
      | none => some e.1
      | some c => if storeLook l.eraseCnt e.1 0 < storeLook l.eraseCnt c 0 then some e.1 else best) none

/-- Work of a kind waits at a LUN: 2 refresh, 3 gleaning, 4 folds, 5 wear levelling. -/
def upkeepWaits (s : State) (lun kind : Nat) : Bool :=
  !kindPaused s lun kind &&
    (if kind = 2 then (refreshNext s lun).isSome
    else if kind = 3 then (s.lun lun).upkeep ≠ 0 && (gleanVictim s lun).isSome
    else if kind = 4 then s.ftl.sheaves.any fun e => foldDue s e.1 && foldLun s e.1 = some lun
    else kind = 5 && (s.lun lun).wearPending && (wearSource s lun).isSome)

/-- A LUN serves upkeep of a kind now: upkeep runs, the kind is not paused, no move of this kind or of an earlier one is under
way, and none of an earlier kind waits (R260). -/
def serves (s : State) (lun kind : Nat) : Bool :=
  upkeepRuns s && lunInOrder (s.lun lun) && !lunTraining s lun && !kindPaused s lun kind &&
    (lunTasks (s.lun lun)).all (fun t => decide (kind < t.kind)) &&
    [2, 3, 4, 5].all fun k => decide (kind ≤ k) || !upkeepWaits s lun k

/-! ## Upkeep moves (R263, R273, R277, R278) -/

/-- Put a move among those that wait, by rising kind. -/
def taskInsert (t : MoveTask) : List MoveTask → List MoveTask
  | [] => [t]
  | m :: l => if t.kind < m.kind then t :: m :: l else m :: taskInsert t l

/-- A LUN takes a move on: the one of the earliest kind is served (R260). -/
def takeTask (t : MoveTask) (l : Lun) : Lun :=
  match taskInsert t (lunTasks l) with
  | [] => l
  | m :: rest => { l with move := some m, moveQueue := rest }

/-- Relocation of a retired block's live data goes before every other move of its LUN (R260, R278). -/
def pushReloc (s : State) (lun b : Nat) : State :=
  onLun s lun (takeTask { kind := 1, src := b, left := blockLive s lun b })

/-- A move has nothing left: its source is erased, or stays retired; the next waiting move begins. -/
def endMove (lun : Nat) (m : MoveTask) (s : State) : State :=
  let s := onLun s lun fun l =>
    match l.moveQueue with
    | [] => { l with move := none }
    | t :: r => { l with move := some t, moveQueue := r }
  if m.kind = 1 then s
  else startErase (if m.kind = 3 then bump s Pg.FTL 0x080 else s) lun m.src

/-- Begin a move of a block's live data; a move of a later kind that is under way waits for it. -/
def startMove (lun kind b : Nat) (s : State) : State :=
  let t : MoveTask := { kind := kind, src := b, left := blockLive s lun b }
  let s := onLun s lun (takeTask t)
  if t.left.isEmpty then endMove lun t s else s

/-- GLEANING begins on a LUN in BACKGROUND, URGENT or FLOOR, or ends what it was about in IDLE (R260, R262). -/
def doGleaning (lun : Nat) (s : State) : State :=
  if serves s lun 3 && (s.lun lun).upkeep ≠ 0 then
    match gleanVictim s lun with
    | some b => startMove lun 3 b s
    | none => s
  else s

/-- REFRESH of the block first in the queue, at the precedence of URGENT in every upkeep state (R273, R274). -/
def doRefresh (lun : Nat) (s : State) : State :=
  match refreshNext s lun with
  | some b => if serves s lun 2 then startMove lun 2 b s else s
  | none => s

/-- WEAR_MOVE (R277). -/
def doWearMove (lun : Nat) (s : State) : State :=
  let s := wearCheck s lun
  if serves s lun 5 && (s.lun lun).wearPending then
    match wearSource s lun with
    | some b => startMove lun 5 b s
    | none => s
  else s

/-- The bytes that a switched move programmed (R265, R267, R297). -/
def countMoved (s : State) (lun kind n : Nat) : State :=
  let s := upkeepMoved (bumpBy s Pg.FTL 0x048 (4096 * n)) (4096 * n)
  let s := bumpBy (bump s (nchPage lun) 0x048) (nchPage lun) 0x060 (4096 * n)
  if kind = 3 then bumpBy s Pg.FTL 0x088 (4096 * n)
  else if kind = 5 then bumpBy s Pg.HLTH 0x050 (4096 * n)
  else s

/-! ## Re-homing (R263) -/

/-- A layout lies in a sheaf in part, its descriptor counted. -/
def usesSheaf (l : Layout) (h : Nat) : Bool :=
  match l with
  | .none => false
  | .packed g _ _ _ => decide (g = h)
  | .big whole tail desc =>
    whole.contains h || (tail.any fun p => decide (p.1 = h)) || (desc.any fun d => decide (d.1 = h))

/-- What a layout has in a nearly dead sheaf moves into the tenant's open shared sheaf: its slots, its tail, its descriptor's
slot; the bytes that moved. -/
def rehomeLayout (s : State) (n h : Nat) (l : Layout) : (Layout × Nat) × State :=
  match l with
  | .none => ((l, 0), s)
  | .packed g0 g i k =>
    let ((a, b, c), s) := placePacked s n k
    ((.packed a b c k, 64 * k), freeSlots s n g0 g i k)
  | .big whole tail desc =>
    let inTail := tail.any fun p => decide (p.1 = h)
    let (tail, s) := if inTail then
        placeTail (overList (fun s (p : Nat × Nat × Nat) => killGrains s p.1 p.2.1 p.2.2) tail s) n (tailGrains tail)
      else (tail, s)
    let bytes := if inTail then 4096 * tailGrains tail else 0
    match desc with
    | some (g0, g, i) =>
      if g0 = h then
        let (d, s) := placePacked s n 1
        ((.big whole tail (some d), bytes + 64), freeSlots s n g0 g i 1)
      else ((.big whole tail desc, bytes), s)
    | none => ((.big whole tail desc, bytes), s)

/-- Re-home everything that a nearly dead sheaf still holds; the tenant packs no new value into it. DEDUCED (log 142):
whatever the kind of the move that meets it. -/
def rehome (h : Nat) (s : State) : State :=
  let n := (s.sheaf h).tenant
  let s := onTen s n fun t => { t with packGrain := if (t.packGrain.map Prod.fst) = some h then none else t.packGrain }
  (((s.ten n).keys.filter fun e => usesSheaf e.layout h).foldl (fun s e =>
    let ((l, bytes), s) := rehomeLayout s n h e.layout
    bumpBy (putKey s n { e with layout := l }) Pg.FTL 0x090 bytes) s)

/-- The sheaf is GRAIN with EMPTY_LIVE or fewer live grains, and is not the tenant's open one (R263). -/
def nearlyDead (s : State) (h : Nat) : Bool :=
  let x := s.sheaf h
  x.mapping = 2 && !x.whole && decide (x.alloc - x.dead.length ≤ s.fld Pg.FTL Off.FTL_GLEAN_SCORE 21 16) &&
    decide ((s.ten x.tenant).openSheaf ≠ some h) && x.dirty.isEmpty

/-! ## SWITCH (R263) -/

/-- The move goes on with the grains `l`. -/
def leaveMove (lun : Nat) (m : MoveTask) (l : List GrainRef) (s : State) : State :=
  let s := onLun s lun fun x => { x with move := some { m with left := l } }
  if l.isEmpty then endMove lun { m with left := l } s else s

/-- A sheaf's slot moves whole. -/
def switchSlot (lun : Nat) (m : MoveTask) (h : Nat) (rest : List GrainRef) (s : State) : State :=
  match blockFor s lun 3 256 with
  | (none, _) => s
  | (some b, s) =>
    let (pos, s) := appendRefs s lun b (slotRefs h)
    let s := onSheaf s h fun x => { x with slot := some { lun := lun, block := b, pos := pos } }
    leaveMove lun m (rest.filter fun q => decide (q.sheaf ≠ h)) (countMoved s lun m.kind 256)

/-- One grain moves; its sheaf is GRAIN, and a fold of it under way finds its entry changed. -/
def switchGrain (lun : Nat) (m : MoveTask) (r : GrainRef) (rest : List GrainRef) (s : State) : State :=
  match blockFor s lun 3 1 with
  | (none, _) => s
  | (some b, s) =>
    let (pos, s) := appendRefs s lun b [r]
    let s := onSheaf s r.sheaf fun x =>
      { x with folding := none, grains := storeInsert x.grains r.grain { lun := lun, block := b, pos := pos } }
    leaveMove lun m rest (countMoved s lun m.kind 1)

/-- The next unit of a move: re-homed from a nearly dead sheaf while the Harvest budget has room for it (R13), else a slot whole
or a grain alone. A slot with dead grains is demoted when the grain map allows. -/
def switchNext (lun : Nat) (m : MoveTask) (r : GrainRef) (rest : List GrainRef) (s : State) : State :=
  let x := s.sheaf r.sheaf
  let moved := rehome r.sheaf s
  if nearlyDead s r.sheaf && budgetHolds s moved then
    leaveMove lun m (rest.filter fun q => decide (q.sheaf ≠ r.sheaf)) moved
  else if movesSlot s r.sheaf then switchSlot lun m r.sheaf rest s
  else
    switchGrain lun m r rest
      (if x.mapping = 1 then bump (makeGrain s r.sheaf) Pg.FTL 0x058 else touchRegion s r.sheaf)

/-- SWITCH: the next unit of the move that a LUN serves is in its new place, and the map entry moves if it still locates the old
copy (R263); a unit that has gone is discarded. A unit waits for its turn at the die queue (Table 9.8). -/
def doSwitch (lun : Nat) (s : State) : State :=
  match (s.lun lun).move with
  | none => s
  | some m =>
    if !upkeepRuns s || lunTraining s lun || kindPaused s lun m.kind then s
    else
      match m.left with
      | [] => endMove lun m s
      | r :: rest =>
        if !unitThere s lun m r then leaveMove lun m rest s
        else
          match switchTurn s lun m with
          | none => s
          | some t => switchNext lun m r rest t

/-! ## Program and erase failure (R278, R279) -/

/-- Place a failed program's data again: into a free block of the same LUN, or by the grain pointer when it has none. -/
def placeFailed (s : State) (p : Prog) : State :=
  if lunInOrder (s.lun p.lun) && decide (0 < freeBlocks s (s.lun p.lun)) then
    (startProg s p.lun (if p.slotOf.isSome then 1 else 2) p.refs p.slotOf p.fold).getD s
  else placeAgain s p

/-- PROGRAM_FAIL (R278): the block is retired, its live data relocated, and the failed data and every later program meant for the
block are programmed elsewhere. -/
def doProgramFail (n : Nat) (s : State) : State :=
  match storeFind s.ftl.progs n with
  | none => s
  | some p =>
    if p.held then s
    else
      let later := s.ftl.progs.filter fun q => decide (q.2.lun = p.lun ∧ q.2.block = p.block ∧ p.pos ≤ q.2.pos)
      let s := bump (later.foldl (fun s q => dropProg s q.1) s) Pg.HLTH 0x040
      let s := pushReloc (retireBlock p.lun p.block s) p.lun p.block
      noteFailure p.lun p.block (later.foldl (fun s q => placeFailed s q.2) s)

/-- ERASE_FAIL (R279). -/
def doEraseFail (lun b : Nat) (s : State) : State :=
  match storeFind (s.lun lun).erasing b with
  | none => s
  | some _ =>
    if (s.lun lun).heldErase.contains b then s
    else
      let s := onLun s lun fun l => { l with erasing := storeErase l.erasing b }
      noteFailure lun b (retireBlock lun b (bump s Pg.HLTH 0x048))

/-! ## Folds (R251) -/

/-- A sheaf's region is resident while the fold of a sheaf with an evicted one is due: that one goes first (R257). -/
def foldYields (s : State) (h : Nat) : Bool :=
  (s.sheaf h).resident && s.ftl.sheaves.any fun e => !e.2.resident && foldDue s e.1

/-- FOLD of a GRAIN sheaf: its slot is programmed at the tenant's rotation pointer, which moves on by 1 (R254), in its turn at the
die queue (Table 9.8). -/
def doFold (h : Nat) (s : State) : State :=
  match foldLun s h with
  | none => s
  | some lun =>
    if foldDue s h && !foldYields s h && serves s lun 4 then
      match upkeepTurn s lun (4, 1048576) with
      | none => s
      | some s =>
        let n := (s.sheaf h).tenant
        let p := (s.ten n).rotPtr
        let k := s.ftl.folds
        let s := upkeepMoved (touchRegion { s with ftl := { s.ftl with folds := k + 1 } } h) 1048576
        let s := onTen (onSheaf s h fun x => { x with folding := some k }) n fun t => { t with rotPtr := p + 1 }
        programSlot s .fold h p (some k)
    else s

end Sys2Proof.Machine
end

