-- ==== Sys2Proof/Machine/Ftl.lean ====
section
/-! DEFINITION. Machine/Ftl.lean: codeword reads and the patrol (R269 to R273, R275, R282), NAND training and discovery (R237
to R241), DRAM errors (R257 to R259), timeouts, identification and temperature (R282, R286, R295). -/

namespace Sys2Proof.Machine

/-! ## The patrol (R275) -/

/-- Codewords of a page. -/
def pageCodewords (p : Part) : Nat := max 1 (p.pageKib / 4)

/-- The pages that a pass reads: the programmed pages of every closed data block, and the journal blocks' pages, of the LUNs in
the order. In RUN no Harvest block holds data (R318). -/
def patrolPages (s : State) : List PageRef :=
  (rotation s).flatMap fun n =>
    let l := s.lun n
    (l.blocks.flatMap fun b =>
      if b.2.use = 2 then
        (List.range (ceilDiv b.2.refs.length (pageCodewords l.part))).map fun i => ⟨n, false, b.1, i⟩
      else []) ++
    (journalBlocks n).flatMap fun b => (List.range (journalHolds s n b)).map fun i => ⟨n, true, b, i⟩

/-- The pages of the present pass that have been read. -/
def patrolSeen (s : State) : Nat := ((patrolPages s).filter fun p => s.ftl.health.patrolRead.contains p).length

/-- The patrol's turn to read a LUN: PATROL_EN, RUN, no earlier upkeep of it, and the die queue's selection of a read of 4,096
bytes (R260, R275, Table 9.8). -/
def patrolTurn (s : State) (lun : Nat) : Option State :=
  if s.bit Pg.ECC Off.ECC_PATROL_CFG 8 && serves s lun 6 then upkeepTurn s lun (6, 4096) else none

/-- The turn of a codeword read at the die queue: the patrol waits for its own. -/
def readTurn (s : State) (c : CwRead) : Option State := if c.patrol then patrolTurn s c.lun else some s

/-- PATROL_DONE: the pass has read every page it has to, and the next begins (R275). -/
def doPatrolDone (s : State) : State :=
  if s.bit Pg.ECC Off.ECC_PATROL_CFG 8 && s.inRun && s.en Pg.FTL && patrolSeen s = (patrolPages s).length then
    setFlag (onHealth s fun h =>
      { h with patrolPasses := (h.patrolPasses + 1) % 65536, patrolStart := s.ft.ns, patrolOverdue := false
               patrolRead := [] }) Pg.ECC 2
  else s

/-- Fleet Time has passed PATROL_DAYS since the pass began. -/
def patrolLate (s : State) : Bool :=
  decide (s.ftl.health.patrolStart + s.fld Pg.ECC Off.ECC_PATROL_CFG 6 0 * 86400000000000 ≤ s.ft.ns)

/-- PATROL_OVERDUE: the pass has reached its end time unfinished (R275). -/
def doPatrolOverdue (s : State) : State :=
  if s.bit Pg.ECC Off.ECC_PATROL_CFG 8 && patrolLate s then onHealth s fun h => { h with patrolOverdue := true } else s

/-! ## Codeword reads (R269 to R273, R282) -/

/-- Bin of the correction histogram (Table 10.5). -/
def histBin (bits : Nat) : Nat := if bits = 0 then 0 else min 7 (1 + bits / 16)

/-- The read-retry entries of step 2: 1 to RETRY_MAX, as far as the part offers them, without the hint (Table 10.1). -/
def retryEntries (s : State) (p : Part) (hint : Nat) : List Nat :=
  (List.range' 1 (min (s.fld Pg.ECC Off.ECC_ECC_CFG 3 0) p.retries)).filter fun k => decide (k ≠ hint)

/-- How far the ladder goes (Table 10.1): the step that decodes, 0 for none, with the page reads of the hard steps and of the
soft ones. With SOFT_EN = 0 it ends at step 2. No outcome where no step could end as the read says (DEDUCED, log 141). -/
def ladder (s : State) (p : Part) (hint : Nat) (c : CwRead) : Option (Nat × Nat × Nat) :=
  let tried := retryEntries s p hint
  let soft := s.bit Pg.ECC Off.ECC_ECC_CFG 4
  let all := 1 + tried.length
  if c.step = 1 then some (1, 1, 0)
  else if c.step = 2 then (tried.findIdx? fun k => decide (k = c.entry)).map fun i => (2, 2 + i, 0)
  else if c.step = 3 then some (if soft then (3, all, 2) else (0, all, 0))
  else if c.step = 4 then some (if soft then (4, all, 4) else (0, all, 0))
  else if c.step = 0 then some (0, all, if soft then 4 else 0)
  else none

/-- The codeword is a programmed one, on a LUN that is read. -/
def cwThere (s : State) (c : CwRead) : Bool :=
  lunInOrder (s.lun c.lun) &&
    (if c.journal then
      (journalBlocks c.lun).contains c.block &&
        decide (c.pos < journalHolds s c.lun c.block * pageCodewords (s.lun c.lun).part)
    else match storeFind (s.lun c.lun).blocks c.block with
      | some x => decide (c.pos < x.refs.length)
      | none => false)

/-- The retry hint of the codeword's block; a journal block has none (R270). -/
def cwHint (s : State) (c : CwRead) : Nat :=
  if c.journal then 0 else ((storeFind (s.lun c.lun).blocks c.block).map FlashBlock.hint).getD 0

/-- The read counter of the codeword's block (R272). -/
def cwReads (s : State) (c : CwRead) : Nat :=
  if c.journal then storeLook (s.lun c.lun).jreads c.block 0
  else ((storeFind (s.lun c.lun).blocks c.block).map FlashBlock.reads).getD 0

/-- Page reads count in the block's read counter, and step 2 leaves its hint (R270, R272). -/
def countRead (s : State) (c : CwRead) (step n : Nat) : State :=
  if c.journal then onLun s c.lun fun l => { l with jreads := storeModify l.jreads c.block 0 (· + n) }
  else onBlock s c.lun c.block fun x => { x with reads := x.reads + n, hint := if step = 2 then c.entry else x.hint }

/-- A block is to be refreshed (R273): a closed data block is queued, once, until its erase; a journal block is rewritten into
the pool. -/
def queueRefresh (c : CwRead) (ctr : Nat) (s : State) : State :=
  if c.journal then setFlag (bump (rewriteJournal s c.lun c.block) Pg.ECC ctr) Pg.ECC 1
  else
    match storeFind (s.lun c.lun).blocks c.block with
    | some x =>
      if x.use ≠ 2 ∨ (s.lun c.lun).refreshQ.contains c.block then s
      else setFlag (bump (onLun s c.lun fun l => { l with refreshQ := l.refreshQ ++ [c.block] }) Pg.ECC ctr) Pg.ECC 1
    | none => s

/-- An uncorrectable codeword affects the keys whose current value or name record lies in it, under one event (R271, R285,
R290); what is in the write buffer is served from there. A journal record has its other copy (R280). -/
def affectCodeword (c : CwRead) (s : State) : State :=
  let hit := match storeFind (s.lun c.lun).blocks c.block with
    | some x => (x.refs[c.pos]?).filter fun r => refLive s c.lun c.block c.pos r && !dirtyGrain s r.sheaf r.grain
    | none => none
  if c.journal then s
  else
    let (num, s) := openEvent s 6 c.lun false
    writeHeader (affectGrains s num (hit.toList.map fun r => (r.sheaf, r.grain)) c.names) num

/-- An uncorrectable codeword (R271, Table 10.2 cause 2). -/
def uncorrectable (c : CwRead) (s : State) : State :=
  let per := pageCodewords (s.lun c.lun).part
  let block := if c.journal then c.block else goodIndex s c.block
  let s := onHealth (bump s Pg.ECC 0x070) fun h =>
    { h with uncorr := h.uncorr + 1, lastUe := some (c.lun, block, c.pos / per, c.pos % per) }
  let s := affectCodeword c (setFlag s Pg.ECC 0)
  let l := s.lun c.lun
  let recent := (l.cwRead, block) :: l.uncorr.filter fun u => decide (l.cwRead < u.1 + 1048576)
  let s := onLun s c.lun fun l => { l with uncorr := recent }
  let blocks := recent.foldl (fun acc u => setAdd acc u.2) []
  if s.fld Pg.HLTH Off.HLTH_DIE_FAIL_CFG 7 0 ≤ blocks.length then failInRun c.lun 2 s else s

/-- A codeword corrected at a step: the histogram and the counters, and a refresh for soft decoding or many errors (R273,
R296). -/
def corrected (c : CwRead) (step : Nat) (s : State) : State :=
  let s := onHealth s fun h =>
    { h with hist := storeModify h.hist (histBin c.bits) 0 (· + 1)
             softUses := h.softUses + (if 3 ≤ step then 1 else 0) }
  let s := if c.bits = 0 then s else bumpBy (bump s Pg.ECC 0x048) Pg.ECC 0x050 c.bits
  let s := if step = 3 then bump s Pg.ECC 0x060 else if step = 4 then bump s Pg.ECC 0x068 else s
  if 3 ≤ step ∨ s.fld Pg.ECC Off.ECC_ECC_CFG 14 8 ≤ c.bits then queueRefresh c 0x080 s else s

/-- The read limit of a block's cells; a journal block is in SLC mode (R273). -/
def readLimit (s : State) (c : CwRead) : Nat :=
  if !c.journal && (s.lun c.lun).part.cell = 2 then s.fld Pg.ECC Off.ECC_READ_LIMIT_QLC 19 0
  else s.fld Pg.ECC Off.ECC_READ_LIMIT_TLC 19 0

/-- What a codeword read counts: page reads and bytes, the patrol's page, the tenant's unit at the die queue (R220, R266,
R296). -/
def countCodeword (c : CwRead) (step hard soft : Nat) (s : State) : State :=
  let n := hard + soft
  let s := bump s Pg.ECC 0x040
  let s := bumpBy (bumpBy s (nchPage c.lun) 0x040 n) (nchPage c.lun) 0x058 (4096 * n)
  let page : PageRef := ⟨c.lun, c.journal, c.block, c.pos / pageCodewords (s.lun c.lun).part⟩
  let s := if c.patrol && !s.ftl.health.patrolRead.contains page then
      onHealth (bump s Pg.ECC 0x088) fun h => { h with patrolRead := h.patrolRead ++ [page] }
    else s
  let s := match c.tenant with
    | some t => serveAlone s 1 t (4096 * n)
    | none => s
  let s := onLun s c.lun fun l => { l with cwRead := l.cwRead + 1, timeouts := 0 }
  countRead (bumpBy s Pg.ECC 0x058 (hard - 1)) c step n

/-- CODEWORD_READ: the ladder's outcome for one codeword (R269 to R273). A read of a channel in training waits in the LUN's
queue (R239), and the patrol's waits for its turn. -/
def doCodewordRead (c : CwRead) (s : State) : State :=
  if !cwThere s c || lunTraining s c.lun then s
  else
    match ladder s (s.lun c.lun).part (cwHint s c) c, readTurn s c with
    | none, _ => s
    | _, none => s
    | some (step, hard, soft), some s =>
      let s := countCodeword c step hard soft s
      let s := if step = 0 then uncorrectable c s else corrected c step s
      if readLimit s c ≤ cwReads s c then queueRefresh c 0x078 s else s

/-! ## NAND training (R238, R239) -/

/-- The grades of Table 9.2, highest first. -/
def grades : List Nat := [3600, 3200, 2400, 1600, 1200, 800, 400]

/-- The present LUNs of a channel. -/
def chanLuns (s : State) (c : Nat) : List Nat :=
  (storeKeys s.ftl.luns).filter fun n => lunChan n = c && lunPresent (s.lun n)

/-- The first family of Table 9.1 that every present LUN of the channel supports; 0 with none. -/
def chanIface (s : State) (c : Nat) : Nat :=
  let l := chanLuns s c
  if l.isEmpty then 0
  else (([1, 2, 3].find? fun k => l.all fun n => (s.lun n).part.ifaces.getLsbD (k - 1)).getD 0)

/-- The first grade that training tries: the highest that the interface, every part and RATE_CAP allow. -/
def firstGrade (s : State) (c : Nat) : Nat :=
  let top := if chanIface s c = 2 then 1600 else 3600
  let cap := (chanLuns s c).foldl (fun m n => min m (s.lun n).part.maxRate) (min top (s.fld (Pg.NCH c) Off.NCH_NCH_CFG 11 0))
  (grades.find? fun g => decide (g ≤ cap)).getD 400

/-- A LUN is excluded: recorded on its channel's page and on the FTL page with an internal code (R237, R238, R241). -/
def excludeLun (code : Nat) (s : State) (n : Nat) : State :=
  if (s.lun n).excluded then s
  else internalErr (setFlag (setFlag (onLun s n fun l => { l with excluded := true }) (nchPage n) 2) Pg.FTL 3) Pg.FTL code

/-- Training of a channel ends at a rate, or fails at every grade (R238). -/
def endTraining (c : Nat) (rate : Option Nat) (s : State) : State :=
  let first := firstGrade s c
  match rate with
  | some r =>
    let s := bump (setChan s c fun t =>
      { t with iface := chanIface s c, rate := r, trained := true, training := false }) (Pg.NCH c) 0x068
    if r < first then internalErr s (Pg.NCH c) 0x40 else s
  | none =>
    let s := bump (setChan s c fun t => { t with iface := chanIface s c, trained := false, training := false, rate := 0 })
      (Pg.NCH c) 0x068
    setFlag s (Pg.NCH c) 0

/-- Commands in progress on a channel, which a retrain lets finish before it trains (R239). -/
def chanBusy (s : State) (c : Nat) : Bool :=
  s.ftl.progs.any (fun p => lunChan p.2.lun = c && !p.2.held) ||
    (s.ftl.luns.any fun e => lunChan e.1 = c && e.2.erasing.any fun x => !e.2.heldErase.contains x.1)

/-- The commands that a channel in training held go ahead (R239). -/
def releaseHeld (c : Nat) (s : State) : State :=
  { s with ftl := { s.ftl with
      progs := s.ftl.progs.map fun p => (p.1, if lunChan p.2.lun = c then { p.2 with held := false } else p.2)
      luns := s.ftl.luns.map fun e => (e.1, if lunChan e.1 = c then { e.2 with heldErase := [] } else e.2) } }

/-- RETRAIN_DONE in RUN, once the channel's commands in progress have finished (R239, Table 10.2 cause 5): a retrain that fails
at every grade fails the dies and excludes the LUNs as at BOOT. -/
def doRetrainDone (c : Nat) (rate : Option Nat) (s : State) : State :=
  if !(s.chan c).training || chanBusy s c then s
  else if (chanLuns s c).isEmpty then
    setFlag (setChan s c fun t => { t with training := false, trained := false, rate := 0, iface := 0 }) (Pg.NCH c) 1
  else
    let s := setFlag (endTraining c rate s) (Pg.NCH c) 1
    let s := if rate.isNone then
        overList (excludeLun 0x40) (chanLuns s c) (overList (fun s n => failDie n 5 s) (chanLuns s c) s)
      else s
    releaseHeld c s

/-- NCH RETRAIN (R239): the page code, 0 when it starts. -/
def retrainCheck (s : State) (c : Nat) (w : Word) : Nat :=
  if !w.bit 0 then 0 else if !s.inRun then 0x02 else if (s.chan c).training then 0x01 else 0

/-- Discovery of a BOOT (R237, R238, R241): the population, its exclusions, and the training of every channel. Formats a
population that no BOOT has formatted. -/
def excludeMismatch (s : State) : State :=
  let r := refPart s
  (storeKeys s.ftl.luns).foldl (fun s n =>
    let p := (s.lun n).part
    let same := p.ifaces = r.ifaces && p.cell = r.cell && p.pageKib = r.pageKib && p.pages = r.pages && p.blocks = r.blocks
    if lunPresent (s.lun n) && (!same || decide (p.spare < 2048)) then excludeLun 0x40 s n else s) s

/-- Exclusion at format of LUNs with too few good blocks, until no more go (R241). -/
def excludeFew : Nat → State → State
  | 0, s => s
  | fuel + 1, s =>
    let h := hrvBlkFor (refPart s) (rotation s).length
    let s := { s with ftl := { s.ftl with hrvBlk := h } }
    match (rotation s).find? fun n => decide ((s.lun n).good < 16 + h + 256) with
    | none => s
    | some n => excludeFew fuel (excludeLun 0x41 s n)

/-- Train one channel at BOOT; one that fails at every grade excludes its LUNs (R238). -/
def trainChannel (trains : Store Nat) (s : State) (c : Nat) : State :=
  if (chanLuns s c).isEmpty then setChan s c fun _ => {}
  else
    let cap := storeLook trains c 0
    let rate := grades.find? fun g => decide (g ≤ firstGrade s c) && decide (g ≤ cap)
    let s := endTraining c rate s
    match rate with
    | some _ => setChan s c fun t => { t with failedAtBoot := false }
    | none =>
      overList (excludeLun 0x40) (chanLuns s c) (setChan s c fun t => { t with failedAtBoot := true })

/-- What a LUN keeps from earlier BOOTs when its part answers again. -/
def meetLun (s : State) (e : Nat × Part × Nat) : State :=
  let l := s.lun e.1
  let fewExcluded := s.ftl.formatted && l.excluded && decide (l.good < 16 + s.ftl.hrvBlk + 256)
  onLun s e.1 fun l =>
    { l with part := e.2.1, good := if s.ftl.formatted && l.good ≠ 0 then l.good else e.2.2, excluded := fewExcluded }

/-- Discovery (R237, R238, R241, R244, R256). -/
def doPopulation (pop : Population) (s : State) : State :=
  let s := { s with ftl := { s.ftl with dram := { s.ftl.dram with gib := pop.dramGib, trained := true } } }
  let s := s.ftl.luns.foldl (fun s e => onLun s e.1 fun l => { l with part := noPart }) s
  let s := pop.luns.foldl meetLun s
  let s := excludeMismatch s
  let s := (List.range 16).foldl (trainChannel pop.trains) s
  let s := if s.ftl.formatted then s
    else
      formatPopulation (excludeFew 512 s)
  let s := gleanCfgApply s
  let s := if (refPart s).rated.isNone && s.fld Pg.HLTH Off.HLTH_RATED_PE 16 0 = 0 then internalErr s Pg.HLTH 0x40 else s
  onHrv (capUpdate s) fun h => { h with rateMBs := pop.hrvRate }

/-! ## GLEAN_CFG, LUN_CMD -/

def gleanCfgCheck (w : Word) : Nat :=
  if w.fld 23 16 < 4 ∨ ¬ (w.fld 23 16 < w.fld 15 8 ∧ w.fld 15 8 < w.fld 7 0) then 0x01 else 0

/-- SPARE_PCT must leave room for the active quotas (R245). -/
def spareCheck (s : State) (w : Word) : Nat := if usableWith s (w.fld 4 0) < quotaSum s then 0x02 else 0

/-- HLTH LUN_CMD (R282 cause 4, Table 10.8). -/
def lunCmdCheck (s : State) (w : Word) : Nat :=
  if !s.inRun then 0x02 else if !lunInOrder (s.lun (w.fld 8 0)) then 0x01 else 0
def lunCmdApply (w : Word) (s : State) : State := if w.bit 12 then failDie (w.fld 8 0) 4 s else s

/-! ## DRAM (R257 to R259, R267) -/

/-- DRAM_UNCORRECTABLE (R258, Table 9.7). -/
def doDramUe (addr64 : Nat) (region : UeRegion) (s : State) : State :=
  let s := setFlag (bump s Pg.DRAM 0x048) Pg.DRAM 1
  let s := { s with ftl := { s.ftl with dram := { s.ftl.dram with lastAddr := addr64 } } }
  match region with
  | .writeBuffer grains =>
    let s := internalErr s Pg.DRAM 0x40
    let hit := grains.filter fun g => dirtyGrain s g.1 g.2
    let (num, s) := openEvent s 7 0xFFFF false
    writeHeader (affectGrains s num hit []) num
  | .index =>
    let s := internalErr s Pg.DRAM 0x41
    { s with ftl := { s.ftl with dram := { s.ftl.dram with rebuilding := s.ftl.dram.rebuilding + 1 } } }
  | .work => internalErr s Pg.DRAM 0x42
  | .cache => internalErr s Pg.DRAM 0x43

/-- REBUILD_DONE (R258). -/
def doRebuildDone (s : State) : State :=
  if s.ftl.dram.rebuilding = 0 then s
  else setFlag { s with ftl := { s.ftl with dram := { s.ftl.dram with rebuilding := s.ftl.dram.rebuilding - 1 } } }
    Pg.DRAM 3

/-- SCRUB_PASS: every word read once; those it corrected (R259, R267). -/
def doScrubPass (corrected : Nat) (s : State) : State :=
  if s.bit Pg.DRAM Off.DRAM_SCRUB_CFG 8 then
    let s := upkeepMoved (bump s Pg.DRAM 0x050) (s.ftl.dram.gib * 2 ^ 30)
    if corrected = 0 then s else setFlag (bumpBy s Pg.DRAM 0x040 corrected) Pg.DRAM 0
  else s

/-- TEMP_DERATE: the devices ask for a raised refresh rate, or no longer (R267). -/
def doTempDerate (raised : Bool) (s : State) : State :=
  { s with ftl := { s.ftl with dram := { s.ftl.dram with derate := raised } } }

/-! ## Timeouts, identification, temperature -/

/-- COMMAND_TIMEOUT: the third in a row fails the die (Table 10.2 cause 1). -/
def doCommandTimeout (lun : Nat) (s : State) : State :=
  if !lunInOrder (s.lun lun) || !s.inRun then s
  else if 2 ≤ (s.lun lun).timeouts then failDie lun 1 s
  else onLun s lun fun l => { l with timeouts := l.timeouts + 1 }

/-- IDENT_DONE: the scan has met every affected key (R286). -/
def doIdentDone (s : State) : State :=
  match s.ftl.health.events.find? fun e => e.identRunning with
  | none => s
  | some e =>
    let s := onEvent (scanDamage s e.num) e.num fun v => { v with identRunning := false }
    setFlag (healCheck (writeHeader s e.num)) Pg.HLTH 6

/-- The bin of a temperature: bin k covers [−40 + 5k, −35 + 5k), the last closed at 125 (Table 10.5). -/
def tempBin (t : Int) : Nat := min 32 ((t + 40) / 5).toNat

/-- TEMP_SAMPLE, once a second; each 60th ends a minute (R295). -/
def doTempSample (t : Int) (s : State) : State :=
  if !s.coreOn then s
  else
    let h := s.ftl.health
    let top := match h.minuteMax with
      | some m => max m t
      | none => t
    let s := onHealth s fun h => { h with tempNow := t, tempMax := max h.tempMax t }
    if h.samples + 1 < 60 then onHealth s fun h => { h with minuteMax := some top, samples := h.samples + 1 }
    else
      let above := decide (tempLimit s < top)
      onHealth s fun h =>
        { h with minuteMax := none, samples := 0, tempBins := storeModify h.tempBins (tempBin top) 0 (· + 1)
                 minAbove := h.minAbove + if above then 1 else 0 }

/-! ## The commands -/

def execWriteBack (sheaf : Nat) (s : State) : Host.Outcome State Fault Refusal := done (doWriteBack sheaf s)
def execProgramDone (prog : Nat) (s : State) : Host.Outcome State Fault Refusal := done (doProgramDone prog s)
def execProgramFail (prog : Nat) (s : State) : Host.Outcome State Fault Refusal := done (doProgramFail prog s)
def execEraseDone (lun block : Nat) (s : State) : Host.Outcome State Fault Refusal := done (doEraseDone lun block s)
def execEraseFail (lun block : Nat) (s : State) : Host.Outcome State Fault Refusal := done (doEraseFail lun block s)
def execCodewordRead (cw : CwRead) (s : State) : Host.Outcome State Fault Refusal := done (doCodewordRead cw s)
def execFold (sheaf : Nat) (s : State) : Host.Outcome State Fault Refusal := done (doFold sheaf s)
def execGleaning (lun : Nat) (s : State) : Host.Outcome State Fault Refusal := done (doGleaning lun s)
def execRefresh (lun : Nat) (s : State) : Host.Outcome State Fault Refusal := done (doRefresh lun s)
def execWearMove (lun : Nat) (s : State) : Host.Outcome State Fault Refusal := done (doWearMove lun s)
def execSwitch (lun : Nat) (s : State) : Host.Outcome State Fault Refusal := done (doSwitch lun s)
def execRetrainDone (chan : Nat) (rate : Option Nat) (s : State) : Host.Outcome State Fault Refusal :=
  done (doRetrainDone chan rate s)
def execDramUncorrectable (addr64 : Nat) (region : UeRegion) (s : State) : Host.Outcome State Fault Refusal :=
  done (doDramUe addr64 region s)
def execRebuildDone (s : State) : Host.Outcome State Fault Refusal := done (doRebuildDone s)
def execPatrolDone (s : State) : Host.Outcome State Fault Refusal := done (doPatrolDone s)
def execPatrolOverdue (s : State) : Host.Outcome State Fault Refusal := done (doPatrolOverdue s)
def execCommandTimeout (lun : Nat) (s : State) : Host.Outcome State Fault Refusal := done (doCommandTimeout lun s)
def execIdentDone (s : State) : Host.Outcome State Fault Refusal := done (doIdentDone s)
def execTempSample (celsius : Int) (s : State) : Host.Outcome State Fault Refusal := done (doTempSample celsius s)
def execScrubPass (corrected : Nat) (s : State) : Host.Outcome State Fault Refusal := done (doScrubPass corrected s)
def execTempDerate (raised : Bool) (s : State) : Host.Outcome State Fault Refusal := done (doTempDerate raised s)

end Sys2Proof.Machine
end

