-- ==== Sys2Proof/Machine/Time.lean ====
section
/-! DEFINITION. Machine/Time.lean: the clocks, Fleet Time, correlation pairs, TSYNC and the Timed Action Table's own
registers and commands (chapter 02); and what one CORE cycle of time does. The firing of table entries stands in
Machine/TatFire.lean. -/

namespace Sys2Proof.Machine

def onFt (s : State) (f : FtState → FtState) : State := { s with ft := f s.ft }
def onClk (s : State) (f : ClkState → ClkState) : State := { s with clk := f s.clk }
def onTat (s : State) (f : TatState → TatState) : State := { s with tat := f s.tat }

/-! ## Correlation pairs (R40, R41) -/

/-- The phase that the tagger gives the marker of the present CORE cycle: 32 phases to an AON cycle of 20 CORE cycles. -/
def markerPhase (s : State) : Nat := if s.clk.recal then 0 else s.hub.subTick * 32 / 20

/-- A correlation pair of the present instant. -/
def pairNow (s : State) (src ns frac phase : Nat) : CorrPair :=
  { tick := s.hub.tick, phase := phase, coarse := s.clk.recal, seeded := s.ft.seeded, src := src, mode := s.ft.mode
    stepCount := s.ft.stepCount, seq := s.ft.pairSeq, ns := ns, frac := frac }

/-- A captured pair is written into the ring and appended to the sillage log (R41). -/
def capturePair (s : State) (src ns frac phase : Nat) : State :=
  let p := pairNow s src ns frac phase
  let s := onFt s fun f =>
    { f with ring := storeInsert f.ring f.ringNext p, ringNext := (f.ringNext + 1) % 64
             ringWrapped := f.ringWrapped || f.ringNext = 63, pairSeq := (f.pairSeq + 1) % 256 }
  let s := onHub s fun h => { h with lastPair := some p, pairs := h.pairs ++ [p] }
  sillPut s 4 phase p.coarse false
    (ftBytes ns (modeNum p.mode) p.stepCount ++
      [BitVec.ofNat 8 (modeNum p.mode), BitVec.ofNat 8 p.stepCount, if p.seeded then 1 else 0])

/-- The fraction of the counter (R26). -/
def ftFrac (s : State) : Nat := s.ft.sub / 65536

/-- The pair of the present CORE cycle (WAKE, PARK). -/
def captureNow (s : State) (src : Nat) : State := capturePair s src s.ft.ns (ftFrac s) (markerPhase s)

/-- Word `k` of a ring entry (Table 2.8). -/
def corrWord (p : CorrPair) (k : Nat) : Word :=
  let sec := p.ns / 1000000000
  if k = 0 then lo32 p.tick
  else if k = 1 then hi32 p.tick
  else if k = 2 then
    Word.place 4 0 p.phase ||| flagBit 5 p.coarse ||| flagBit 6 p.seeded ||| Word.place 9 8 p.src |||
      Word.place 12 10 (modeNum p.mode) ||| Word.place 23 16 p.stepCount ||| Word.place 31 24 p.seq
  else if k = 3 then lo32 (p.ns % 1000000000)
  else if k = 4 then lo32 sec
  else if k = 5 then Word.place 15 0 (sec / 2 ^ 32) ||| Word.place 31 16 p.frac
  else 0

/-- FT_STAT, CORR_HEAD, CLK_STAT, CLK_HOLD. -/
def ftStat (s : State) : Word :=
  Word.place 2 0 (modeNum s.ft.mode) ||| flagBit 3 s.ft.seeded ||| Word.place 15 8 s.ft.stepCount
def corrHead (s : State) : Word := Word.place 5 0 s.ft.ringNext ||| flagBit 8 s.ft.ringWrapped
/-- CLK_STAT (Table 2.5). Nothing is detected while the AON power-on reset is asserted: REF_PRESENT then reads 0. -/
def clkStat (s : State) : Word :=
  flagBit 0 s.clk.coreLock ||| flagBit 1 s.clk.aonLock ||| flagBit 2 (s.clk.refPresent && !s.pwr.porHeld) |||
    flagBit 4 (s.pwr.straps.getLsbD 4)
def clkHold (s : State) : Word := BitVec.ofNat 32 (min 0xFFFFFFFF (s.clk.freeNs / 1000))

/-! ## The Timed Action Table's pause (R53) -/

/-- Evaluation is paused. -/
def tatPaused (s : State) : Bool :=
  s.ft.mode = .unset || (s.ft.mode = .free && s.bit Pg.TAT Off.TAT_TAT_CFG 1) || !s.bit Pg.TAT Off.TAT_TAT_CFG 0 ||
    !s.tat.loaded || !s.coreOn || s.pwr.state = .harvest

/-- A pause that has begun makes a lateness pass due at its end. -/
def tatNote (s : State) : State :=
  if tatPaused s && !s.tat.passDue then onTat s fun t => { t with passDue := true } else s

/-- A step or set has moved Fleet Time from `old` to its present value: the entries it carried past are late and
STEPPED (R52); an entry that lies ahead is neither. -/
def markStepped (s : State) (old : Nat) : State :=
  let now := s.ft.ns
  onTat s fun t => { t with entries := t.entries.map fun (i, e) =>
    if e.status = .armed then
      if now < e.t then (i, { e with stepped := false, late := false })
      else if old < e.t then (i, { e with stepped := true, late := true })
      else (i, e)
    else (i, e) }

/-! ## State, step, set (R28, R30) -/

/-- Fleet Time takes a state; a change sets STATE_CHG. -/
def setMode (s : State) (m : FtMode) : State :=
  if s.ft.mode = m then s else tatNote (setFlag (onFt s fun f => { f with mode := m }) Pg.TIME 0)

/-- The state of a code. -/
def modeOf (n : Nat) : FtMode :=
  match n with
  | 1 => .free
  | 2 => .tsync
  | 3 => .ptp
  | 4 => .holdover
  | _ => .unset

/-- The counter's range: 48-bit seconds. -/
def ftRange : Nat := 2 ^ 48 * 1000000000

/-- The signed offset of FT_STEP. -/
def stepOffset (s : State) : Int :=
  (BitVec.append (s.reg Pg.TIME Off.TIME_FT_STEP_HI) (s.reg Pg.TIME Off.TIME_FT_STEP_LO)).toInt

/-- The value of FT_SET, ns. -/
def setValue (s : State) : Nat :=
  ((s.fld Pg.TIME Off.TIME_FT_SET_SEC_HI 15 0) * 2 ^ 32 + (s.reg Pg.TIME Off.TIME_FT_SET_SEC_LO).toNat) * 1000000000 +
    (s.reg Pg.TIME Off.TIME_FT_SET_NS).toNat

/-- What a step or set counts and signals (R28, R57, Table 16.1). -/
def stepDone (s : State) (counts : Bool) : State :=
  let s := if counts then onFt s fun f => { f with stepCount := (f.stepCount + 1) % 256 } else s
  pulse (setFlag (bump s Pg.TIME 0x050) Pg.TIME 1) [82]

/-- The counter moved by a step of `d` ns, its state as it was. -/
def ftStepped (s : State) (d : Int) : State :=
  let old := s.ft.ns
  let s := stepDone s (!s.ft.seeded)
  markStepped (onFt s fun f => { f with ns := (((f.ns : Int) + d) % (ftRange : Int)).toNat }) old

/-- The counter loaded by a set with `v` ns. -/
def ftLoaded (s : State) (v : Nat) : State :=
  let old := s.ft.ns
  let s := stepDone s true
  markStepped (onFt s fun f => { f with ns := v, sub := 0, seeded := false }) old

/-- STATE_LOAD of a state: TSYNC and PTP clear SEEDED (R30, R31). -/
def loadMode (s : State) (m : FtMode) : State :=
  setMode (if m = .tsync || m = .ptp then onFt s fun f => { f with seeded := false } else s) m

/-- A write of FT_CMD with the offset of FT_STEP and the value of FT_SET as they stood (R28). -/
structure FtCmd where
  word : Word
  step : Int
  value : Nat
  deriving DecidableEq, Repr

/-- What a write of FT_CMD carries (R28). -/
def ftCmdOf (s : State) (w : Word) : FtCmd := { word := w, step := stepOffset s, value := setValue s }

/-- A write of FT_CMD takes effect at its cycle's boundary: the step or set, then the load (R30). -/
def ftApply (s : State) (c : FtCmd) : State :=
  let m := if c.word.bit 1 ∧ s.ft.mode = .unset then .free else s.ft.mode
  let s := if c.word.bit 0 then ftStepped s c.step else if c.word.bit 1 then ftLoaded s c.value else s
  if c.word.bit 2 then loadMode s (modeOf (c.word.fld 6 4)) else setMode s m

/-- A served write of FT_CMD. -/
def ftCommand (s : State) (w : Word) : State := ftApply s (ftCmdOf s w)


/-- The value of a TIME write is refused (R5, R27, Table 2.7). DESIGN CHOICE (log 109): NEW_STATE is judged only where
STATE_LOAD is 1. -/
def timeBad (off : Nat) (w : Word) : Bool :=
  if off = Off.TIME_FT_CMD then
    (w.bit 0 && w.bit 1) || (w.bit 2 && (w.fld 6 4 = 0 || decide (5 ≤ w.fld 6 4)))
  else if off = Off.TIME_FT_ADDEND then decide (4294967 < w.signed ∨ w.signed < -4294967)
  else if off = Off.TIME_TSYNC_OFFSET then decide (500000000 < w.signed ∨ w.signed < -500000000)
  else if off = Off.TIME_TSYNC_OUT_CFG then
    w.fld 15 6 = 0 || 1000 % w.fld 15 6 ≠ 0 || decide (w.fld 15 6 * 1000 ≤ w.fld 24 16)
  else false

/-- A read of FT_RD_NS or TSYNC_CAP_NS latches a counter value into the path's shadow (R29): the word read. -/
def latchTime (s : State) (p : Path) (off ns frac : Nat) : Word × State :=
  let sec := ns / 1000000000
  let s := setShadow (setShadow s p Pg.TIME (off + 4) (lo32 sec)) p Pg.TIME (off + 8)
    (Word.place 15 0 (sec / 2 ^ 32) ||| Word.place 31 16 frac)
  (lo32 (ns % 1000000000), s)

/-- A read of word 0 of a ring entry latches its 8 words into the path's shadow (R41): the word read. The shadow of the
ring is kept at the addresses of entry 0. -/
def latchPair (s : State) (p : Path) (n : Nat) : Word × State :=
  match storeFind s.ft.ring n with
  | some c => (corrWord c 0, (List.range 7).foldl (fun s k =>
      setShadow s p Pg.TIME (0x804 + 4 * k) (corrWord c (k + 1))) s)
  | none => (0, (List.range 7).foldl (fun s k => setShadow s p Pg.TIME (0x804 + 4 * k) 0) s)

/-- The TIME page soft reset clears the ring (R57). DESIGN CHOICE (log 110): the pair number SEQ goes on through it. -/
def timeSoftReset (s : State) : State :=
  onFt s fun f => { f with ring := [], ringNext := 0, ringWrapped := false, cap := 0, goodRun := 0, outHigh := false }

/-! ## Clock events (R25, R39) -/

/-- REF_LOSS: the loss of REFCLK is detected. -/
def doRefLoss (s : State) : State :=
  if !s.clk.refPresent then s
  else
    let s := onClk s fun c => { c with refPresent := false, coreLock := false, aonLock := false }
    if !s.coreOn then s
    else
      let s := setFlag (bump s Pg.CLK 0x050) Pg.CLK 2
      if s.ft.mode = .unset then s else setMode s .free

/-- REFCLK_RETURN. -/
def doRefclkReturn (s : State) : State := onClk s fun c => { c with refPresent := true }

/-- PLL_RELOCK: the core PLL, while core power is on, or the AON PLL locks again. -/
def doPllRelock (core : Bool) (s : State) : State :=
  if !s.clk.refPresent then s
  else if core then (if s.coreOn then onClk s fun c => { c with coreLock := true } else s)
  else if s.pwr.porHeld then s
  else onClk s fun c => { c with aonLock := true }

/-- TAGGER_RECALIBRATE: the die temperature has moved 10 °C since the last calibration. -/
def doTaggerRecalibrate (temp : Int) (s : State) : State :=
  if 10 ≤ (temp - s.clk.calTemp).natAbs then onClk s fun c => { c with recal := true, calTemp := temp } else s

/-- TAGGER_RECAL_DONE. -/
def doTaggerRecalDone (s : State) : State := onClk s fun c => { c with recal := false }

/-! ## FT_SECOND, TSYNC, SYNC_TIMEOUT (R26, R34 to R37, R40, R42) -/

/-- The per-cycle increment has carried into the seconds field: the SECOND pair and the producer's pulse. -/
def secondPassed (s : State) : State :=
  pulse (capturePair s 0 (s.ft.ns / 1000000000 * 1000000000) 0 (markerPhase s)) [80]

/-- `ns` lies within ±`w` of `off`, modulo one second (R35). -/
def nearSecond (ns : Nat) (off : Int) (w : Nat) : Bool :=
  let d := (((ns : Int) - off) % 1000000000).toNat
  decide (d ≤ w) || decide (1000000000 ≤ d + w)

/-- The AON tag of an edge tagged now with a phase (R39). -/
def edgeTag (s : State) (phase : Nat) : Nat := s.hub.tick * 32 + if s.clk.recal then 0 else phase % 32

/-- The state to which the servo takes Fleet Time when its source is lost (Table 2.1). -/
def sourceLost (s : State) : FtMode := if s.bit Pg.TIME Off.TIME_PTP_CFG 28 then .holdover else .free

/-- TSYNC_IN may discipline Fleet Time: DISC_EN, and 4 consecutive good captures (R36). -/
def tsyncGood (s : State) : Bool := s.bit Pg.TIME Off.TIME_TSYNC_CFG 0 && decide (4 ≤ s.ft.goodRun)

/-- FT_ADDEND lies in the range of R27. -/
def addendFits (w : Word) : Bool := decide (w.signed ≤ 4294967) && decide (-4294967 ≤ w.signed)

/-- The servo slews FT_ADDEND: to which value the manual leaves open (a free value within the range of R27). -/
def slew (s : State) : State :=
  let (n, s) := drawFree s
  let w := Config.slewAddend n
  if addendFits w then setReg s Pg.TIME Off.TIME_FT_ADDEND w else s

/-- What the servo, while the HKP image runs, makes of a capture (R34, R36, Table 2.1): while PTP is not locked and the state
is not UNSET, it takes Fleet Time to TSYNC and disciplines it, and out of TSYNC when the captures are no longer good. -/
def tsyncServo (s : State) : State :=
  if !s.pwr.image then s
  else match s.ft.mode with
  | .free | .holdover => if tsyncGood s then slew (loadMode s .tsync) else s
  | .tsync => if tsyncGood s then slew s else setMode s (sourceLost s)
  | .unset | .ptp => s

/-- The capture of a TSYNC_IN edge in CORE: the capture, its pair, and its judgement (R35), and what the servo makes of it. -/
def tsyncCapture (s : State) (phase : Nat) : State :=
  let s := setFlag (bump (onFt s fun f => { f with cap := f.ns }) Pg.TIME 0x040) Pg.TIME 2
  let s := capturePair s 2 s.ft.ns (ftFrac s) (if s.clk.recal then 0 else phase % 32)
  tsyncServo
    (if nearSecond s.ft.cap (s.reg Pg.TIME Off.TIME_TSYNC_OFFSET).signed (s.fld Pg.TIME Off.TIME_TSYNC_CFG 15 4 * 1000) then
      onFt s fun f => { f with goodRun := f.goodRun + 1 }
    else setFlag (bump (onFt s fun f => { f with goodRun := 0 }) Pg.TIME 0x048) Pg.TIME 3)

/-- The island's judgement of an edge in PARK, and its mark (R42). -/
def tsyncPark (s : State) (tag : Nat) : State :=
  let w := s.ft.parkWindow * 1600
  let good := match s.ft.lastTsyncTag with
    | none => true
    | some t => decide (t + 1600000000 ≤ tag + w) && decide (tag ≤ t + 1600000000 + w)
  if !good then s
  else
    let n := s.ft.parkGood + 1
    let s := onFt s fun f => { f with parkGood := n }
    if n % max 1 (s.fld Pg.TIME Off.TIME_CORR_CFG 11 0) ≠ 0 || s.hub.marks.getLast?.any (fun m => m / 32 = tag / 32) then s
    else
      let s := sillPut s 5 (tag % 32) s.clk.recal false []
      onHub s fun h => { h with marks := h.marks ++ [tag], lastMark := s.hub.tick }

/-- TSYNC_IN_EDGE: a rising edge is tagged with a phase, whenever the island runs. -/
def doTsyncInEdge (phase : Nat) (s : State) : State :=
  if s.pwr.porHeld then s
  else
    let tag := edgeTag s phase
    let s := pulse s [71]
    let s := if s.coreOn then tsyncCapture s phase else if s.pwr.state = .park then tsyncPark s tag else s
    onFt s fun f => { f with lastTsyncTag := some tag }

/-- TSYNC_OUT is enabled, and the state gated in (R37). -/
def tsyncOutOn (s : State) : Bool :=
  s.coreOn && s.bit Pg.TIME Off.TIME_TSYNC_OUT_CFG 0 && s.bit Pg.TIME Off.TIME_TSYNC_OUT_CFG (1 + modeNum s.ft.mode)

/-- Fleet Time in the CORE cycle before this one, by the increment of R26. -/
def prevNs (s : State) : Int :=
  (s.ft.ns : Int) - 1 + ((s.ft.sub : Int) - (s.reg Pg.TIME Off.TIME_FT_ADDEND).signed) / 4294967296

/-- The present CORE cycle is the first that lies ADV_NS before a PERIOD_MS instant, or after it (R37). -/
def tsyncOutDue (s : State) : Bool :=
  let period : Int := s.fld Pg.TIME Off.TIME_TSYNC_OUT_CFG 15 6 * 1000000
  let adv : Int := s.fld Pg.TIME Off.TIME_TSYNC_OUT_ADV 7 0
  decide ((prevNs s + adv) / period < ((s.ft.ns : Int) + adv) / period)

/-- TSYNC_OUT_PULSE: ADV_NS before a PERIOD_MS instant. -/
def doTsyncOutPulse (s : State) : State :=
  if tsyncOutOn s && tsyncOutDue s then pulse (onFt s fun f => { f with outHigh := true }) [81] else s

/-- TSYNC_OUT_END: WIDTH_US later. -/
def doTsyncOutEnd (s : State) : State := onFt s fun f => { f with outHigh := false }

/-- The TSYNC_OUT pin. -/
def tsyncOutPin (s : State) : Bool := s.ft.outHigh && tsyncOutOn s

/-- The state that Fleet Time falls to when PTP is lost (R34, R36, Table 2.1). -/
def afterPtp (s : State) : FtMode := if tsyncGood s then .tsync else sourceLost s

/-! ## TAT registers and commands (R48 to R50) -/

/-- The window registers spell an entry. -/
def stagedEntry (s : State) : TatEntry :=
  let c := s.reg Pg.TAT Off.TAT_TE_CTRL
  { t := ((s.fld Pg.TAT Off.TAT_TE_T_SEC_HI 15 0) * 2 ^ 32 + (s.reg Pg.TAT Off.TAT_TE_T_SEC_LO).toNat) * 1000000000 +
      (s.reg Pg.TAT Off.TAT_TE_T_NS).toNat
    kind := c.fld 2 0, argLo := s.reg Pg.TAT Off.TAT_TE_ARG_LO, argHi := s.reg Pg.TAT Off.TAT_TE_ARG_HI
    periodMs := (s.reg Pg.TAT Off.TAT_TE_PERIOD_MS).toNat, actAs := c.fld 13 8, sec := c.bit 14, persist := c.bit 3
    skipLate := c.bit 4, status := .armed }

/-- An argument outside what Table 2.4 gives its kind, or a REG_WRITE to the TAT page. -/
def argBad (e : TatEntry) : Bool :=
  let lo := e.argLo.toNat
  let hi := e.argHi.toNat
  match e.kind with
  | 0 => lo ≠ 0 || hi ≠ 0
  | 1 => decide (48 ≤ lo) || hi ≠ 0
  | 2 => decide (65536 ≤ lo) || decide (64 ≤ hi)
  | 3 => decide (64 ≤ hi)
  | 4 => decide (8 ≤ lo) || hi ≠ 0
  | 5 => decide (64 ≤ lo)
  | 6 => decide (2 ^ 24 ≤ lo) || pageOf lo = Pg.TAT
  | _ => true

def State.tatIdx (s : State) : Nat := s.fld Pg.TAT Off.TAT_TAT_IDX 7 0
def State.poolBase (s : State) : Nat := s.fld Pg.TAT Off.TAT_TAT_CFG 15 8

/-- The page code of a TAT write by tenant `t` with attribute `sec` (R48, R50). -/
def tatCheck (s : State) (t : Nat) (sec : Bool) (off : Nat) (w : Word) : Nat :=
  if off = Off.TAT_TAT_CMD then
    let op := w.fld 1 0
    let owned := decide (s.poolBase ≤ s.tatIdx) && !(t = 0 && sec)
    if op = 3 then (if owned then 0x04 else 0)
    else if op = 2 then
      let e := stagedEntry s
      if owned then 0x04
      else if e.kind = 7 then 0x02
      else if argBad e ∨ 999999999 < (s.reg Pg.TAT Off.TAT_TE_T_NS).toNat then 0x03
      else if e.t ≤ s.ft.ns ∧ !w.bit 4 then 0x01
      else 0
    else 0
  else if off = Off.TAT_TAT_CFG then
    let a := s.poolBase
    let b := w.fld 15 8
    if s.tat.entries.any fun (i, e) => e.status = .armed && decide (min a b ≤ i ∧ i < max a b) then 0x05 else 0
  else 0

/-- The number of an entry's state in TE_CTRL. -/
def statusNum : TatStatus → Nat
  | .empty => 0
  | .armed => 1
  | .done => 2
  | .err => 3
  | .cancelled => 4

/-- READ: the entry goes into the window registers. -/
def tatRead (s : State) : State :=
  let e := s.entry s.tatIdx
  let sec := e.t / 1000000000
  let s := setReg s Pg.TAT Off.TAT_TE_T_NS (lo32 (e.t % 1000000000))
  let s := setReg s Pg.TAT Off.TAT_TE_T_SEC_LO (lo32 sec)
  let s := setReg s Pg.TAT Off.TAT_TE_T_SEC_HI (Word.place 15 0 (sec / 2 ^ 32))
  let s := setReg s Pg.TAT Off.TAT_TE_CTRL
    (Word.place 2 0 e.kind ||| flagBit 3 e.persist ||| flagBit 4 e.skipLate ||| Word.place 13 8 e.actAs |||
      flagBit 14 e.sec ||| Word.place 18 16 (statusNum e.status))
  let s := setReg (setReg s Pg.TAT Off.TAT_TE_ARG_LO e.argLo) Pg.TAT Off.TAT_TE_ARG_HI e.argHi
  let s := setReg s Pg.TAT Off.TAT_TE_PERIOD_MS (BitVec.ofNat 32 e.periodMs)
  setReg s Pg.TAT Off.TAT_TE_MISSED (BitVec.ofNat 32 (min 65535 e.missed))

/-- WRITE: the staged entry replaces entry TAT_IDX; SEC only for TC0 with the attribute. -/
def tatWrite (s : State) (t : Nat) (sec : Bool) : State :=
  let e := stagedEntry s
  setEntry s s.tatIdx { e with sec := e.sec && t = 0 && sec }

/-- CANCEL: the entry becomes CANCELLED, and the staged swap behind it is withdrawn (R196). -/
def tatCancel (s : State) : State :=
  let e := s.entry s.tatIdx
  let s := setEntry s s.tatIdx { e with status := .cancelled }
  if e.status = .armed && e.kind = 2 then discardSwap s s.tatIdx (e.argHi.toNat % 64) (e.argLo.toNat % 65536) false else s

/-- A served write of TAT_CMD. -/
def tatCommand (s : State) (t : Nat) (sec : Bool) (w : Word) : State :=
  match w.fld 1 0 with
  | 1 => tatRead s
  | 2 => tatWrite s t sec
  | 3 => tatCancel s
  | _ => s

/-- A fire record's first word, and its word `k` (Table 2.9). -/
def fireWord0 (r : FireRec) : Word :=
  Word.place 7 0 r.idx ||| flagBit 8 r.late ||| flagBit 9 r.skipped ||| flagBit 10 r.stepped ||| flagBit 11 r.err |||
    Word.place 31 16 (min 65535 r.missed)
def fireWord (r : FireRec) (k : Nat) : Word :=
  let sec := r.ns / 1000000000
  if k = 0 then fireWord0 r
  else if k = 1 then lo32 (r.ns % 1000000000)
  else if k = 2 then lo32 sec
  else Word.place 15 0 (sec / 2 ^ 32) ||| Word.place 23 16 r.kind ||| Word.place 31 24 r.seq

def armedEntries (s : State) : List (Nat × TatEntry) := s.tat.entries.filter fun e => e.2.status = .armed

/-- TAT_NEXT: the earliest armed entry, the lower index where two are as early. -/
def tatNext (s : State) : Word :=
  match (armedEntries s).foldl (fun b e => match b with
      | none => some e
      | some c => if e.2.t < c.2.t then some e else b) (none : Option (Nat × TatEntry)) with
  | some e => Word.place 7 0 e.1
  | none => 0x100

/-- The read-only words of the TAT page that the state shows. -/
def tatShow (s : State) (off : Nat) : Option Word :=
  if off = Off.TAT_TAT_PENDING then some (BitVec.ofNat 32 (armedEntries s).length)
  else if off = Off.TAT_TAT_NEXT then some (tatNext s)
  else if off = Off.TAT_TAT_FIRE_HEAD then some (BitVec.ofNat 32 s.tat.ringNext)
  else if 0x150 ≤ off ∧ off < 0x160 then
    some (match s.tat.last with
      | some r => if off = 0x15C then fireWord r 3 &&& 0xFFFF else fireWord r ((off - 0x150) / 4)
      | none => 0)
  else if 0x800 ≤ off ∧ off < 0xC00 then
    some (match storeFind s.tat.ring ((off - 0x800) / 16) with
      | some r => fireWord r (off % 16 / 4)
      | none => 0)
  else none

/-- The TAT page soft reset (R50): entries and POOL_BASE stand; ring and TAT_LAST go. -/
def tatSoftReset (s : State) : State := onTat s fun t => { t with ring := [], ringNext := 0, fireSeq := 0, last := none }

/-! ## One CORE cycle of time -/

/-- The counter one CORE cycle on (R26). -/
def ftCounted (s : State) : State :=
  let t : Int := (s.ft.sub : Int) + (s.reg Pg.TIME Off.TIME_FT_ADDEND).signed
  onFt s fun f =>
    { f with ns := (((f.ns : Int) + 1 + t / 4294967296) % (ftRange : Int)).toNat, sub := (t % 4294967296).toNat }

/-- The counter's increment in one CORE cycle carries into the seconds field. -/
def ftCarries (s : State) : Bool := decide (s.ft.ns / 1000000000 ≠ (ftCounted s).ft.ns / 1000000000)

/-- The counter's increment in one CORE cycle, with the SECOND pair of a carry (R26, R40). -/
def ftIncrement (s : State) : State := if ftCarries s then secondPassed (ftCounted s) else ftCounted s

/-- The microsecond counts of the core (R222, R260). -/
def coreMicro (s : State) : State :=
  let n := s.fratra.coreSub + 1
  if n < 1000 then { s with fratra := { s.fratra with coreSub := n } }
  else
    let s := { s with fratra := { s.fratra with coreSub := 0, coreUs := s.fratra.coreUs + 1 } }
    if allFloor s then bump s Pg.FTL 0x098 else s

/-- The AON tick, once in 20 CORE cycles (R38), and what falls due in it. -/
def aonCycle (s : State) : State :=
  if s.hub.subTick + 1 < 20 then onHub s fun h => { h with subTick := h.subTick + 1 }
  else islandTick (onHub s fun h => { h with subTick := 0, tick := (h.tick + 1) % 2 ^ 64 })

/-- The core PLL runs free: the core is up, past the wait for its lock (R96), and it is not locked (R25). -/
def coreFree (s : State) : Bool := s.coreOn && (s.pwr.wait = .none || s.pwr.wait = .hold) && !s.clk.coreLock

/-- The host can address the hub: attached and past its first bus reset, not suspended. -/
def hubTalks (s : State) : Bool :=
  !s.usb.suspended && (s.usb.up = .default || s.usb.up = .address || s.usb.up = .configured)

/-- CORE cycles between the host's start-of-frame packets: 125 µs at high speed, 1 ms at full speed (R467). -/
def sofPeriod (s : State) : Nat := if s.usb.highSpeed then 125000 else 1000000

/-- A start-of-frame packet of the host (R467): the first names any frame, each later one the next micro-frame, or the next
frame at full speed. -/
def startOfFrame (s : State) : State :=
  if s.usb.sofRuns then
    onUsb s fun u => { u with sofCycles := 0, frame := if u.highSpeed then (u.frame + 1) % 16384 else (u.frame / 8 + 1) % 2048 * 8 }
  else
    let (n, s) := drawFree s
    onUsb s fun u => { u with sofCycles := 0, sofRuns := true, frame := (Config.hostFrame n).toNat * 8 }

/-- The USB frame timing one CORE cycle on (DESIGN CHOICE, log 116: the host sends its packets on time while the hub is
active). -/
def usbCycle (s : State) : State :=
  if !hubTalks s then s
  else if s.usb.sofCycles + 1 < sofPeriod s then onUsb s fun u => { u with sofCycles := u.sofCycles + 1 }
  else startOfFrame s

/-- The clocks and counters one CORE cycle on. -/
def timePasses (s : State) : State :=
  let s := if s.pwr.porHeld then s else usbCycle (aonCycle s)
  let s := if coreFree s then onClk s fun c => { c with freeNs := c.freeNs + 1 } else s
  if s.coreOn then coreMicro (ftIncrement s) else s

/-! ## The commands -/

def execRefLoss (s : State) : Host.Outcome State Fault Refusal := done (doRefLoss s)
def execRefclkReturn (s : State) : Host.Outcome State Fault Refusal := done (doRefclkReturn s)
def execPllRelock (core : Bool) (s : State) : Host.Outcome State Fault Refusal := done (doPllRelock core s)

def execTsyncInEdge (phase : Nat) (s : State) : Host.Outcome State Fault Refusal := done (doTsyncInEdge phase s)
def execTsyncOutPulse (s : State) : Host.Outcome State Fault Refusal := done (doTsyncOutPulse s)
def execTsyncOutEnd (s : State) : Host.Outcome State Fault Refusal := done (doTsyncOutEnd s)
def execTaggerRecalibrate (temp : Int) (s : State) : Host.Outcome State Fault Refusal := done (doTaggerRecalibrate temp s)
def execTaggerRecalDone (s : State) : Host.Outcome State Fault Refusal := done (doTaggerRecalDone s)

end Sys2Proof.Machine
end

