-- ==== Sys2Proof/Machine/Servo.lean ====
section
/-! DEFINITION. Machine/Servo.lean: the PTP servo of the HKP image, as far as the manual gives it (R32 to R36): the Sync
messages it takes, the offset from the master, and what it does with an offset. -/

namespace Sys2Proof.Machine

/-! ## What the servo does (R34, R36, Table 2.1) -/

/-- The servo steps Fleet Time by `d` ns, by a write of FT_CMD (R28). -/
def servoStep (s : State) (d : Int) : State :=
  let w := BitVec.ofInt 64 d
  let s := setReg (setReg s Pg.TIME Off.TIME_FT_STEP_LO (w.extractLsb' 0 32)) Pg.TIME Off.TIME_FT_STEP_HI (w.extractLsb' 32 32)
  ftCommand s 1

/-- A signed number of nanoseconds, saturated to 32 bits (PTP_OFFSET). -/
def saturate32 (d : Int) : Word := BitVec.ofInt 32 (max (-2147483648) (min 2147483647 d))

/-- LOCK_THRESH, ns. -/
def lockThresh (s : State) : Nat := s.fld Pg.TIME Off.TIME_PTP_THRESH 31 16

/-- The servo removes an offset from the master: by a step beyond STEP_THRESH, else by slewing (R34). -/
def removeOffset (s : State) (off : Int) : State :=
  if s.fld Pg.TIME Off.TIME_PTP_THRESH 15 0 * 1000 < off.natAbs then servoStep s (-off) else slew s

/-- The servo declares PTP after 8 Sync intervals within LOCK_THRESH, and leaves it beyond 10 × LOCK_THRESH (R34). -/
def judgeLock (s : State) (off : Int) : State :=
  let run := if off.natAbs < lockThresh s then s.ft.lockRun + 1 else 0
  let s := onFt s fun f => { f with lockRun := run }
  if s.ft.mode = .ptp then (if 10 * lockThresh s < off.natAbs then loadMode s (afterPtp s) else s)
  else if 8 ≤ run then loadMode s .ptp
  else s

/-- The servo has an offset from the master, ns (R34). -/
def servoOffset (s : State) (off : Int) : State :=
  judgeLock (removeOffset (setReg s Pg.TIME Off.TIME_PTP_OFFSET (saturate32 off)) off) off

/-! ## Sync messages (R32, R33) -/

/-- A PTP message on an enabled port, in the domain and on the VLAN of PTP_CFG, when a frame is one (R33). -/
def ptpMessage (s : State) (k : Nat) (f : RxFrame) : Option (List Byte) :=
  let i := s.readHead k f.bytes
  let body := f.bytes.drop (14 + 4 * i.tags)
  let vid := s.fld Pg.TIME Off.TIME_PTP_CFG 27 16
  if f.flags = 0 && decide (i.etype = 0x88F7) && s.bit Pg.TIME Off.TIME_PTP_CFG (12 + k) &&
      decide (((body.drop 4).headD 0).toNat = s.fld Pg.TIME Off.TIME_PTP_CFG 7 0) &&
      (if vid = 0 then decide (i.tags = 0) else decide (i.vid = some vid)) then some body else none

/-- Fields of a PTP message: its type, the two-step flag, correctionField in 2⁻¹⁶ ns, sequenceId, and the time stamp of a Sync
or Follow_Up, ns. -/
def ptpType (m : List Byte) : Nat := (m.headD 0).toNat % 16
def ptpTwoStep (m : List Byte) : Bool := ((m.drop 6).headD 0).getLsbD 1
def ptpCorrection (m : List Byte) : Int := (BitVec.ofNat 64 (beNat ((m.drop 8).take 8))).toInt
def ptpSeq (m : List Byte) : Nat := beNat ((m.drop 30).take 2)
def ptpStamp (m : List Byte) : Nat := beNat ((m.drop 34).take 6) * 1000000000 + beNat ((m.drop 40).take 4)

/-- The offset from the master: the receive stamp less the master's stamp, the corrections, and the measured path delay. -/
def offsetFrom (rx origin : Nat) (corr : Int) (delay : Nat) : Int := (rx : Int) - origin - corr / 65536 - delay

/-- The servo weighs a Sync with its master's stamp. The path delay is what it has measured, a free value (log 101). -/
def weighSync (s : State) (rx origin : Nat) (corr : Int) : State :=
  let (n, s) := drawFree s
  servoOffset s (offsetFrom rx origin corr (Config.pathDelay n).toNat)

/-- A PTP message reaches the servo. A Sync is counted; a one-step Sync is weighed at once, a two-step one with its
Follow_Up. -/
def servoMessage (s : State) (k : Nat) (rx : Nat) (m : List Byte) : State :=
  if ptpType m = 0 then
    let s := bump s Pg.TIME 0x058
    if ptpTwoStep m then onFt s fun f => { f with syncHeld := some (k, ptpSeq m, rx, ptpCorrection m) }
    else weighSync s rx (ptpStamp m) (ptpCorrection m)
  else if ptpType m = 8 then
    match s.ft.syncHeld with
    | some (p, seq, stamp, corr) =>
      if p = k ∧ seq = ptpSeq m then weighSync (onFt s fun f => { f with syncHeld := none }) stamp (ptpStamp m) (corr + ptpCorrection m)
      else s
    | none => s
  else s

/-- What the latest frame end handed to the HKP from a PTP queue reaches the servo while its image runs (R34, R136). -/
def servoTakes (s : State) (k : Nat) : State :=
  match (s.port k).toHkp with
  | some (q, f) =>
    if s.pwr.image && decide (s.queueRole k q = 4) then
      match ptpMessage s k f with
      | some m => servoMessage s k f.stamp m
      | none => s
    else s
  | none => s

/-! ## SYNC_TIMEOUT -/

/-- SYNC_TIMEOUT: no Sync has come, and the servo leaves PTP (R34). -/
def doSyncTimeout (s : State) : State :=
  if s.pwr.image && s.ft.mode = .ptp then loadMode (onFt s fun f => { f with lockRun := 0, syncHeld := none }) (afterPtp s) else s

def execSyncTimeout (s : State) : Host.Outcome State Fault Refusal := done (doSyncTimeout s)

end Sys2Proof.Machine
end

