-- ==== Sys2Proof/Machine/P256.lean ====
section
/-! DEFINITION. Machine/P256.lean: the signature check of Table 4.7 step 6: ECDSA over the curve P-256 with SHA-256. The
manual names the curve and the hash; their figures are those of the standard it names. -/

namespace Sys2Proof.Machine

/-- The curve's prime. -/
def curveP : Nat := 2 ^ 256 - 2 ^ 224 + 2 ^ 192 + 2 ^ 96 - 1

/-- The order of the base point. -/
def curveN : Nat := 0xFFFFFFFF00000000FFFFFFFFFFFFFFFFBCE6FAADA7179E84F3B9CAC2FC632551

/-- The constant term of the curve's equation y² = x³ − 3x + b. -/
def curveB : Nat := 0x5AC635D8AA3A93E7B3EBBD55769886BC651D06B0CC53B0F63BCE3C3E27D2604B

/-- Bit `i` of a number. -/
def natBit (n i : Nat) : Bool := n / 2 ^ i % 2 = 1

/-- `b ^ e` modulo `m`, for an exponent of 256 bits. -/
def powMod (b e m : Nat) : Nat :=
  (List.range 256).foldr (fun i acc => let sq := acc * acc % m; if natBit e i then sq * b % m else sq) 1

/-- The inverse of a number modulo a prime. -/
def invMod (a m : Nat) : Nat := powMod a (m - 2) m

/-- A point of the curve in weighted coordinates: the point (x / z², y / z³), or the neutral element where z is 0. -/
structure CurvePoint where
  x : Nat
  y : Nat
  z : Nat
  deriving DecidableEq, Repr

/-- The neutral element. -/
def CurvePoint.zero : CurvePoint := ⟨1, 1, 0⟩

/-- `a − b` modulo the curve's prime. -/
def subP (a b : Nat) : Nat := (a + (curveP - b % curveP)) % curveP

/-- Twice a point. -/
def CurvePoint.twice (q : CurvePoint) : CurvePoint :=
  if q.z = 0 then q
  else
    let zz := q.z * q.z % curveP
    let yy := q.y * q.y % curveP
    let m := 3 * (subP q.x zz * (q.x + zz)) % curveP
    let w := 4 * q.x * yy % curveP
    let x := subP (m * m % curveP) (2 * w)
    ⟨x, subP (m * subP w x % curveP) (8 * yy * yy), 2 * q.y * q.z % curveP⟩

/-- The sum of two points. -/
def CurvePoint.plus (q r : CurvePoint) : CurvePoint :=
  if q.z = 0 then r
  else if r.z = 0 then q
  else
    let qz := q.z * q.z % curveP
    let rz := r.z * r.z % curveP
    let u := q.x * rz % curveP
    let dx := subP (r.x * qz % curveP) u
    let v := q.y * rz * r.z % curveP
    let dy := subP (r.y * qz * q.z % curveP) v
    if dx = 0 then (if dy = 0 then q.twice else .zero)
    else
      let d2 := dx * dx % curveP
      let d3 := d2 * dx % curveP
      let x := subP (dy * dy % curveP) (d3 + 2 * u * d2)
      ⟨x, subP (dy * subP (u * d2 % curveP) x % curveP) (v * d3), dx * q.z % curveP * r.z % curveP⟩

/-- A multiple of a point, for a factor of 256 bits. -/
def CurvePoint.times (k : Nat) (q : CurvePoint) : CurvePoint :=
  (List.range 256).foldr (fun i acc => if natBit k i then acc.twice.plus q else acc.twice) .zero

/-- The base point. -/
def curveG : CurvePoint :=
  ⟨0x6B17D1F2E12C4247F8BCE6E563A440F277037D812DEB33A0F4A13945D898C296,
    0x4FE342E2FE1A7F9B8EE7EB4A7C0F9E162BCE33576B315ECECBB6406837BF51F5, 1⟩

/-- A pair of coordinates is a point of the curve. -/
def onCurve (x y : Nat) : Bool :=
  decide (x < curveP) && decide (y < curveP) && decide (y * y % curveP = (x * x * x + (curveP - 3) * x + curveB) % curveP)

/-- (r, s) is a signature of a message under the public key (x, y). -/
def ecdsaOk (x y r s : Nat) (message : List Byte) : Bool :=
  if r = 0 ∨ curveN ≤ r ∨ s = 0 ∨ curveN ≤ s ∨ onCurve x y = false then false
  else
    let w := invMod s curveN
    let q := (curveG.times (beNat (sha256 message) * w % curveN)).plus (CurvePoint.times (r * w % curveN) ⟨x, y, 1⟩)
    q.z ≠ 0 && decide (q.x * invMod (q.z * q.z % curveP) curveP % curveP % curveN = r)

end Sys2Proof.Machine
end

