-- ==== Sys2Proof/Machine/Image.lean ====
section
/-! DEFINITION. Machine/Image.lean: the header of an HKP image (R106, Table 4.6) and the checks of Table 4.7 (R107). -/

namespace Sys2Proof.Machine

/-! ## The header (Table 4.6) -/

/-- `n` bytes of an image at an offset, as a number. -/
def imgNum (i : ImageRead) (off n : Nat) : Nat := beNat ((i.bytes.drop off).take n)

def imgMagic (i : ImageRead) : Nat := imgNum i 0x00 4
def imgVersion (i : ImageRead) : Nat := imgNum i 0x04 2
def imgKeyIdx (i : ImageRead) : Nat := imgNum i 0x06 1
def imgFlags (i : ImageRead) : Nat := imgNum i 0x07 1
def imgBodyLen (i : ImageRead) : Nat := imgNum i 0x08 4
def imgEntry (i : ImageRead) : Nat := imgNum i 0x0C 4

/-- PUBKEY, and the bytes that the signature covers: header bytes 0x00 to 0x4F and the body. -/
def imgPubkey (i : ImageRead) : List Byte := (i.bytes.drop 0x10).take 64
def imgSigned (i : ImageRead) : List Byte := i.bytes.take 0x50 ++ (i.bytes.drop 144).take (imgBodyLen i)

/-! ## The checks (Table 4.7) -/

/-- The fused boot key hash `k`. -/
def State.bootKey (s : State) (k : Nat) : List Byte := storeLook s.sec.bootKeys k (List.replicate 32 0)

/-- Step 4: the public key is the one of fused hash KEY_IDX, and that hash is not revoked. There are hashes 0 to 3
(DESIGN CHOICE, log 139: KEY_IDX above 3 fails here). -/
def imgKeyOk (s : State) (i : ImageRead) : Bool :=
  decide (imgKeyIdx i < 4) && decide (sha256 (imgPubkey i) = s.bootKey (imgKeyIdx i)) &&
    !s.sec.revoked.getLsbD (imgKeyIdx i)

/-- Step 6: the signature verifies under PUBKEY. -/
def imgSigOk (i : ImageRead) : Bool :=
  ecdsaOk (imgNum i 0x10 32) (imgNum i 0x30 32) (imgNum i 0x50 32) (imgNum i 0x70 32) (imgSigned i)

/-- The failure code of the first check of Table 4.7 that an image fails, or 0. -/
def imageFault (s : State) (i : ImageRead) : Nat :=
  if imgMagic i ≠ 0x4C484B50 ∨ imgFlags i ≠ 0 ∨ imgBodyLen i ≤ imgEntry i then 0x01
  else if imgBodyLen i % 16 ≠ 0 ∨ 4194304 < imgBodyLen i then 0x06
  else if !i.readOk then 0x05
  else if !imgKeyOk s i then 0x02
  else if imgVersion i < Config.versionFloor.toNat then 0x04
  else if !imgSigOk i then 0x03
  else 0

end Sys2Proof.Machine
end

