-- ==== Sys2Proof/Machine/Sec.lean ====
section
/-! DEFINITION. Machine/Sec.lean: the SEC block (R86 to R90): key slots and key commands, boot key revocation, and the LMF
secure session with its nonces and lockout. -/

namespace Sys2Proof.Machine

/-- The slot that KS_IDX selects. -/
def State.ksIdx (s : State) : Nat := s.fld Pg.SEC Off.SEC_KS_IDX 7 0

/-- Bytes of a slot's key: 64 in AES slots, 32 in HMAC slots and slot 128. -/
def keyBytes (slot : Nat) : Nat := if slot < 64 then 64 else 32

/-- The key in KS_DATA for a slot. -/
def ksKey (s : State) (slot : Nat) : List Byte :=
  (List.range (keyBytes slot / 4)).flatMap fun k => (storeLook s.sec.ksData k 0).bytes

/-- A random key for a slot (GENERATE): its value is free. -/
def freshKey (s : State) (slot : Nat) : List Byte × State :=
  let (n, s) := drawFree s
  ((List.range (keyBytes slot)).map (Config.randomKey n), s)

def setSlot (s : State) (slot : Nat) (key : List Byte) : State := onSec s fun x => { x with slots := storeInsert x.slots slot key }

/-- A key command has changed a slot: a tenant's hold follows (R231). -/
def slotChanged (s : State) (slot : Nat) : State := if slot < 64 then keyHoldCheck s slot else s

/-- GENERATE on a slot, from its start to its end (R230). -/
def generateNow (s : State) (slot : Nat) : State :=
  let (k, s) := freshKey s slot
  slotChanged (setFlag (bump (setSlot s slot k) Pg.SEC 0x050) Pg.SEC 0) slot

/-- What the command behind BUSY does when it completes (R87, R90). -/
def keyEffect (s : State) (op : KeyOp) : State :=
  match op with
  | .load slot key => slotChanged (setSlot s slot key) slot
  | .generate slot =>
    let (k, s) := freshKey s slot
    slotChanged (setSlot s slot k) slot
  | .zeroize slot => slotChanged (onSec s fun x => { x with slots := storeErase x.slots slot }) slot
  | .check slot =>
    let v := match s.slotKey slot with
      | some k => beNat ((hmac256 k (List.replicate 16 0)).take 3)
      | none => 0
    onSec s fun x => { x with kcv := v }
  | .revoke key blow =>
    if blow then onSec s fun x => { x with revoked := x.revoked ||| BitVec.ofNat 4 (2 ^ key) } else s

/-- KEY_DONE: the running key command or revocation ends. -/
def keyFinish (s : State) : State :=
  match s.sec.busy with
  | none => s
  | some op =>
    let s := onSec s fun x => { x with busy := none, ksData := [] }
    setFlag (bump (keyEffect s op) Pg.SEC 0x050) Pg.SEC 0

/-- KEY_DONE, with what the random source reports of itself from then on. -/
def doKeyDone (rngFault : Bool) (s : State) : State :=
  if s.sec.busy.isNone then s else keyFinish (onSec s fun x => { x with rngFault := rngFault })

/-- Core power goes while a key command runs: the slot keeps its old contents or takes the result; which is free (R87). -/
def keyPowerLoss (s : State) : State :=
  match s.sec.busy with
  | none => s
  | some op =>
    let (n, s) := drawFree s
    let s := onSec s fun x => { x with busy := none, ksData := [] }
    if Word.bit (Config.freeWord n) 0 then keyEffect s op else s

/-- The response that opens a session with the latest nonce (R88). -/
def sessExpected (s : State) (nonce key : List Byte) : List Byte :=
  (hmac256 key (nonce ++ (s.reg Pg.SYS Off.SYS_SERIAL_HI).bytes ++ (s.reg Pg.SYS Off.SYS_SERIAL_LO).bytes)).take 16

/-- The response last written. -/
def sessResponse (s : State) : List Byte := (List.range 4).flatMap fun k => (storeLook s.sec.sessResp k 0).bytes

/-- A write to KEY_REV_CMD is an OPEN, CLOSE, GO or key command: its page code, 0 when it is admitted (Table 3.18). -/
def secCheck (s : State) (p : Path) (off : Nat) (w : Word) : Nat :=
  if off = Off.SEC_KS_IDX then (if 128 < w.fld 7 0 then 0x01 else 0)
  else if off = Off.SEC_KS_CMD then
    if w.fld 2 0 = 0 ∨ 5 ≤ w.fld 2 0 then 0x83
    else if s.sec.busy.isSome then 0x02
    else if w.fld 2 0 = 2 ∧ s.sec.rngFault then 0x03
    else 0
  else if off = Off.SEC_KEY_REV_CMD ∧ w.bit 8 then
    let k := w.fld 1 0
    if !s.inRun then 0x07
    else if s.sec.busy.isSome then 0x02
    else if k = s.fld Pg.SEC Off.SEC_SEC_STAT 5 4 ∨ s.sec.revoked ||| BitVec.ofNat 4 (2 ^ k) = 15 then 0x06
    else 0
  else if off = Off.SEC_SESS_CTRL ∧ w.bit 0 then
    if s.sec.lockout then 0x05
    else if (s.sec.nonce.map Prod.fst) ≠ some p then 0x04
    else if (s.slotKey 128).isNone then 0x08
    else 0
  else 0

/-- The session closes. -/
def closeSession (s : State) : State := onSec s fun x => { x with session := false }

/-- An OPEN that reaches its comparison (R89 step 4). -/
def sessOpen (s : State) : State :=
  let nonce := (s.sec.nonce.map Prod.snd).getD []
  let key := (s.slotKey 128).getD []
  if sessResponse s = sessExpected s nonce key then
    onSec (bump s Pg.SEC 0x040) fun x => { x with session := true, failures := 0 }
  else
    let s := setFlag (bump (onSec s fun x => { x with failures := x.failures + 1 }) Pg.SEC 0x048) Pg.SEC 1
    if 3 ≤ s.sec.failures then setFlag (onSec s fun x => { x with lockout := true }) Pg.SEC 2 else s

/-- Every OPEN makes the latest nonce stale, rejected ones too (R89). -/
def staleNonce (s : State) (off : Nat) (w : Word) : State :=
  if off = Off.SEC_SESS_CTRL ∧ w.bit 0 then onSec s fun x => { x with nonce := none } else s

/-- The command that a write of KS_CMD starts. -/
def keyOpOf (s : State) (op : Nat) : KeyOp :=
  let slot := s.ksIdx
  match op with
  | 1 => .load slot (ksKey s slot)
  | 2 => .generate slot
  | 3 => .zeroize slot
  | _ => .check slot

/-- A served write of a SEC register, beyond what it stores. -/
def secApply (s : State) (off : Nat) (w : Word) : State :=
  if 0x140 ≤ off ∧ off < 0x180 then
    onSec s fun x => { x with ksData := storePut x.ksData ((off - 0x140) / 4) 0 w }
  else if 0x190 ≤ off ∧ off < 0x1A0 then
    onSec s fun x => { x with sessResp := storePut x.sessResp ((off - 0x190) / 4) 0 w }
  else if off = Off.SEC_KS_CMD then onSec s fun x => { x with busy := some (keyOpOf s (w.fld 2 0)) }
  else if off = Off.SEC_KEY_REV_CMD ∧ w.bit 8 then
    let k := w.fld 1 0
    onSec s fun x => { x with busy := some (.revoke k (!x.revoked.getLsbD k)) }
  else if off = Off.SEC_SESS_CTRL then
    let s := if w.bit 0 then staleNonce (sessOpen s) off w else s
    if w.bit 1 then closeSession s else s
  else s

/-- A read of SESS_NONCE0 outside the lockout draws a nonce on the path: the word read (R89). -/
def drawNonce (s : State) (p : Path) : Word × State :=
  let (n, s) := drawFree s
  let v := Config.nonce n
  let word (k : Nat) : Word := v.extractLsb' (96 - 32 * k) 32
  let s := onSec s fun x => { x with nonce := some (p, (List.range 4).flatMap fun k => (word k).bytes) }
  (word 0, [1, 2, 3].foldl (fun s k => setShadow s p Pg.SEC (Off.SEC_SESS_NONCE k) (word k)) s)

/-- A read of SESS_NONCE0 during the lockout loads zeros into the path's shadow (R89). -/
def zeroNonce (s : State) (p : Path) : State :=
  [1, 2, 3].foldl (fun s k => setShadow s p Pg.SEC (Off.SEC_SESS_NONCE k) 0) s

/-- SESS_IDLE_TIMEOUT, LOCKOUT_END (R89). -/
def doSessIdleTimeout (s : State) : State := closeSession s
def doLockoutEnd (s : State) : State :=
  if s.sec.lockout then onSec s fun x => { x with lockout := false, failures := 0 } else s

/-- SEC_STAT, BOOT_VER, KEY_REVOKE, KS_STAT. -/
def secStat (s : State) : Word :=
  (s.reg Pg.SEC Off.SEC_SEC_STAT &&& 0x37) ||| Word.place 9 8 Config.lifecycle.toNat ||| flagBit 12 s.sec.session |||
    flagBit 13 Config.debugEn
def bootVer (s : State) : Word := (s.reg Pg.SEC Off.SEC_BOOT_VER &&& 0xFFFF) ||| Word.place 31 16 Config.versionFloor.toNat
def ksStat (s : State) : Word :=
  flagBit 0 s.sec.busy.isSome ||| flagBit 1 (s.slotKey s.ksIdx).isSome ||| Word.place 31 8 s.sec.kcv

/-- The SEC page soft reset: a running command completes; the session closes; nonces, KS_DATA and the KCV go (R87). -/
def secSoftReset (s : State) : State :=
  onSec (keyFinish s) fun x => { x with session := false, nonce := none, ksData := [], sessResp := [], kcv := 0 }

/-! ## The commands -/

def execKeyDone (rngFault : Bool) (s : State) : Host.Outcome State Fault Refusal := done (doKeyDone rngFault s)
def execSessIdleTimeout (s : State) : Host.Outcome State Fault Refusal := done (doSessIdleTimeout s)
def execLockoutEnd (s : State) : Host.Outcome State Fault Refusal := done (doLockoutEnd s)

end Sys2Proof.Machine
end

