-- ==== Sys2Proof/Machine/Flits.lean ====
section
/-! DEFINITION. Machine/Flits.lean: the bytes of Accord messages, their flits, and the blocks and rows in which the lanes carry
them (R181, R333 to R335, R339, R341, Tables 12.5 to 12.7). -/

namespace Sys2Proof.Machine

/-! ## Messages (Table 12.7) -/

/-- The virtual channel of a message. -/
def vcOf : AccMsg → Nat
  | .mirror .. => 0
  | .mirrorAck .. | .leadMap .. | .notice .. | .incident .. | .portMacs .. => 1
  | .relay .. | .keyReq .. | .keyData .. | .divList .. | .divEnd .. => 2

/-- The tenant whose note a message of VC0 or VC2 has (R338). -/
def msgTenant : AccMsg → Nat
  | .mirror n _ _ | .divList n _ _ | .divEnd n _ => n
  | .keyReq q => q.tenant
  | .keyData d => d.tenant
  | _ => 0

/-- The carriage prefix (R181). -/
def prefixBytes (c : Carriage) (mirror : Bool) : List Byte :=
  macBytes c.src ++ macBytes c.dst ++ beBytes 2 c.vid ++ [BitVec.ofNat 8 (c.port % 4), if mirror then 1 else 0]

/-- A Fratra part in MIRROR form (R341): the header fields that its rewriting leaves. -/
structure MirrorForm where
  tenant : Nat
  opcode : Nat
  key : List Byte
  seq : Nat
  options : Nat
  version : Nat
  offset : Nat
  total : Nat
  ext : List Byte
  deriving DecidableEq, Repr

/-- One frame of it: a fragment at OFFSET, the first, the last or between (Table 6.2, R341). -/
def mirrorFrame (f : MirrorForm) (frag last : Bool) (offset : Nat) (value : List Byte) : List Byte :=
  [BitVec.ofNat 8 (0x10 + b2n frag 4 + b2n last 2), BitVec.ofNat 8 f.tenant, BitVec.ofNat 8 f.opcode,
   BitVec.ofNat 8 f.key.length] ++ [0, 0, 0, 0] ++ beBytes 4 f.seq ++ beBytes 4 f.options ++ beBytes 8 f.version ++
    beBytes 4 offset ++ beBytes 4 f.total ++ f.key ++ f.ext ++ value

/-- The largest fragment of a Fratra part in a message, its key carried as it is (R168, R339). -/
def mirrorFragment (keyLen ext : Nat) : Nat := (9600 - 18 - 32 - keyLen - ext) / 64 * 64

/-- A value in MIRROR form, in ascending fragments, at most `fuel` of them (R168). -/
def mirrorFrames (f : MirrorForm) (p : Nat) (many : Bool) : Nat → Nat → List Byte → List (List Byte)
  | 0, _, _ => []
  | fuel + 1, at_, bs =>
    if bs.length ≤ p ∨ p = 0 then [mirrorFrame f many true (f.offset + at_) bs]
    else mirrorFrame f many false (f.offset + at_) (bs.take p) :: mirrorFrames f p many fuel (at_ + p) (bs.drop p)

/-- All frames of a Fratra part in MIRROR form. -/
def mirrorParts (f : MirrorForm) (value : List Byte) : List (List Byte) :=
  let p := mirrorFragment f.key.length f.ext.length
  mirrorFrames f p (decide (p < value.length)) (value.length + 1) 0 value

/-- The MIRROR form of an operation (R341, Table 12.8). A stage carries T and its R194 VERSION (DEDUCED, log 128); a swap's
commit or discard its identifier as OFFSET, and no value. -/
def mirrorForm (n q : Nat) (m : MirrorOp) : MirrorForm :=
  let timed := m.options.bit 6
  let stage := m.opcode = 0x21 && !timed
  let ext := match stage, m.swap with
    | true, some (ns, _, _) => ftBytes ns 0 0
    | _, _ => []
  { tenant := n, opcode := m.opcode, key := m.key, seq := q, options := m.options.toNat + b2n (!ext.isEmpty) 1
    version := match stage, m.swap with
      | true, some (_, ident, entry) => entry * 65536 + ident
      | _, _ => m.version
    offset := if timed then m.offset else 0, total := if timed then 0 else m.value.length, ext := ext }

/-- The Fratra part of a KEY_DATA: the key and its version in MIRROR form, with the bytes where they are present. -/
def keyDataForm (d : KeyData) : MirrorForm :=
  { tenant := d.tenant
    opcode := match d.content with
      | .value _ => 0x10
      | .aliasTo _ => 0x20
    key := d.key, seq := 0, options := 0, version := d.version, offset := 0
    total := contentLength d.content, ext := [] }

/-- Entries of a DIV_LIST in messages of at most 9,600 bytes: each with its count and its entries' bytes. -/
def divChunks (full : Bool) : List DivItem → Nat → List Byte → List (Nat × List Byte)
  | [], k, acc => [(k, acc)]
  | d :: rest, k, acc =>
    let e := [BitVec.ofNat 8 d.key.length] ++ d.key ++ beBytes 8 d.version ++ beBytes 4 d.epoch ++
      [BitVec.ofNat 8 (b2n d.deleted 1 + b2n full 2)]
    if 9600 < 8 + acc.length + e.length then (k, acc) :: divChunks full rest 1 e
    else divChunks full rest (k + 1) (acc ++ e)

/-- The messages on the wire: type and content, a value in as many as its fragments need (Table 12.7). -/
def wireMsgs (s : State) : AccMsg → List (Nat × List Byte)
  | .mirror n q m => (mirrorParts (mirrorForm n q m) m.value).map fun p => (1, prefixBytes m.carriage true ++ p)
  | .mirrorAck n q v => [(3, [BitVec.ofNat 8 n, 0, 0, 0] ++ beBytes 4 q ++ beBytes 8 v)]
  | .leadMap map => [(4, map)]
  | .notice kind epoch ns =>
    [(5, [BitVec.ofNat 8 kind] ++ beBytes 4 epoch ++ ftBytes ns (modeNum s.ft.mode) s.ft.stepCount)]
  | .incident n ns => [(6, [BitVec.ofNat 8 n] ++ ftBytes ns (modeNum s.ft.mode) s.ft.stepCount)]
  | .portMacs macs links => [(7, (macs.take 4).flatMap macBytes ++ [links.zeroExtend 8, 0])]
  | .relay c part => [(8, prefixBytes c false ++ part)]
  | .keyReq q =>
    [(9, [BitVec.ofNat 8 q.tenant, if q.nameLost then 1 else 0, BitVec.ofNat 8 q.key.length, 0] ++ beBytes 8 q.version ++
      beBytes 2 q.ranges.length ++ q.key ++ q.ranges.flatMap fun r => beBytes 4 r.1 ++ beBytes 4 r.2)]
  | .keyData d =>
    let pre := beBytes 4 d.epoch ++ List.replicate 10 0 ++
      [BitVec.ofNat 8 (b2n d.present 1 + b2n d.deleted 2 + b2n d.absent 4 + b2n d.lost 8), 0]
    (mirrorParts (keyDataForm d) (match d.content with
      | .value bs => bs
      | .aliasTo t => t)).map fun p => (10, pre ++ p)
  | .divList n full l => (divChunks full l 0 []).map fun c => (11, [BitVec.ofNat 8 n, 0, 0, 0] ++ beBytes 4 c.1 ++ c.2)
  | .divEnd n count => [(12, [BitVec.ofNat 8 n, 0, 0, 0] ++ beBytes 4 count)]

/-! ## Flits (R334) -/

/-- The flits of one message, 64 bytes each, at most `fuel` of them. -/
def cutFlits (mtype : Nat) : Nat → Bool → List Byte → List FlitBody
  | 0, _, _ => []
  | fuel + 1, som, bs =>
    let body (eom : Bool) : FlitBody := { som := som, eom := eom, mtype := if som then mtype else 0, payload := bs.take 64 }
    if bs.length ≤ 64 then [body true] else body false :: cutFlits mtype fuel false (bs.drop 64)

/-- The flits of an entry of the outgoing queue. -/
def flitsOf (s : State) (m : AccMsg) : List FlitBody :=
  (wireMsgs s m).flatMap fun w => cutFlits w.1 (w.2.length + 1) true w.2

/-- How many flits carry it. -/
def msgFlits (s : State) (m : AccMsg) : Nat := (flitsOf s m).length

/-- A flit on the wire: header, payload filled with zeros, CRC-32C least significant byte first (Table 12.5). -/
def flitBytes (vc fseq : Nat) (f : FlitBody) : List Byte :=
  let head : Word := Word.place 31 30 vc ||| flagBit 29 f.som ||| flagBit 28 f.eom ||| Word.place 27 12 fseq |||
    Word.place 11 8 f.mtype ||| Word.place 6 0 f.payload.length
  let covered := Word.bytes head ++ f.payload ++ List.replicate (64 - f.payload.length) 0
  covered ++ leBytes32 (crc32c covered)

/-- A LINK flit on the wire (Table 12.6). -/
def linkFlitBytes (s : State) (f : LinkFlit) : List Byte :=
  let credit (v : Nat) := beBytes 2 (f.credits.getD v 0)
  flitBytes 3 0
    { som := false, eom := false, mtype := 0
      payload := beBytes 2 f.ack ++
        [BitVec.ofNat 8 (b2n f.nak 1 + b2n f.hb 2 + b2n f.retrain 4 + b2n f.widthReq 8 + b2n f.echo 16),
         BitVec.ofNat 8 f.widthWanted] ++ beBytes 2 f.nakFseq ++ credit 0 ++ credit 1 ++ credit 2 ++ beBytes 4 f.hbSeq ++
        ftBytes f.ns (modeNum s.ft.mode) s.ft.stepCount ++ beBytes 4 f.epoch ++ beBytes 2 f.poolFree ++
        List.replicate 30 0 }

/-! ## Ordered sets (R326, R327) -/

/-- An ordered set: block type 0x4B, an O-code and 6 data bytes (Table 12.3). -/
def orderedSet (code : Byte) (data : List Byte) : LineBlock :=
  { ctl := true, bytes := [0x4B, code] ++ data ++ List.replicate (6 - data.length) 0 }

/-- The lane may train: neither LANE_DIS nor its page's EN excludes it (R327, Table 3.20). -/
def laneTrains (s : State) (n : Nat) : Bool := s.en (Pg.ACL n) && !s.bit (Pg.ACL n) Off.ACL_LANE_CFG 0

def State.lane (s : State) (n : Nat) : LaneState := storeLook s.acd.lanes n {}
def State.maxWidth (s : State) : Nat := s.fld Pg.ACD Off.ACD_ACD_CFG 6 4

/-- The good lanes, in ascending order. -/
def goodLanes (s : State) : List Nat := (List.range 4).filter fun n => s.acd.good.getLsbD n

/-- The largest width of at most `cap` that fits a set of good lanes (R325). -/
def fitWidth (good : BitVec 4) (cap : Nat) : Nat :=
  if 4 ≤ cap ∧ good = 15 then 4
  else if 2 ≤ cap ∧ (good &&& 3 = 3 ∨ good &&& 12 = 12) then 2
  else if 1 ≤ cap ∧ good ≠ 0 then 1 else 0

/-- The lanes that a width uses (R325). -/
def lanesFor (width : Nat) (good : BitVec 4) : BitVec 4 :=
  match width with
  | 4 => 15
  | 2 => if good &&& 3 = 3 then 3 else 12
  | 1 => if good.getLsbD 0 then 1 else if good.getLsbD 1 then 2 else if good.getLsbD 2 then 4 else 8
  | _ => 0

/-- This end's proposal in WIDTH (R327, R331). -/
def proposedWidth (s : State) : Nat :=
  let twinMax := (s.acd.twin.map Hello.maxWidth).getD 4
  let cap := min s.maxWidth twinMax
  let cap := match s.acd.following with
    | some (.width w) => min cap w
    | _ => cap
  fitWidth (s.acd.good &&& s.acd.twinGood) cap

/-- This side holds keys of a mirrored tenant (R324). -/
def holdsKeys (s : State) : Bool := (List.range 64).any fun n => s.mirrored n && !(s.ten n).keys.isEmpty

/-- TS1 as a lane sends it. In EQUALIZE it requests a preset of the twin until it wants none: the wish is free, one for each row
(DESIGN CHOICE, log 136). -/
def ts1Set (s : State) (n : Nat) : LineBlock :=
  let wish := if s.acd.train = 2 then Config.presetWish n s.acd.rows % 12 else 0
  orderedSet 0x01 [BitVec.ofNat 8 n, BitVec.ofNat 8 s.acd.rate, BitVec.ofNat 8 (s.lane n).preset, BitVec.ofNat 8 wish,
    if s.acd.train = 2 ∧ wish = 0 then 1 else 0]

/-- TS2 of a lane. -/
def ts2Set (s : State) (n : Nat) : LineBlock := orderedSet 0x02 [BitVec.ofNat 8 n, s.acd.good.zeroExtend 8]

/-- HELLO: its three ordered sets, A, B and C (Table 12.3). -/
def helloSets (s : State) : List LineBlock :=
  let knows := match s.acd.twin with
    | some h => decide (h.serial = s.acd.partner) && decide (s.acd.partner ≠ 0)
    | none => false
  let sn := beBytes 8 Config.serial.toNat
  [orderedSet 0x04 (BitVec.ofNat 8 (s.rank % 2 + b2n (holdsKeys s) 2 + b2n knows 4 + b2n s.acd.adopt.isSome 8 +
      b2n (s.acd.adopt.getD false) 16) :: (beBytes 4 s.acd.epoch ++ [BitVec.ofNat 8 s.maxWidth])),
    orderedSet 0x05 (sn.take 6), orderedSet 0x06 (sn.drop 6 ++ [s.acd.good.zeroExtend 8])]

/-- WIDTH: this end's proposal and its lanes. -/
def widthSet (s : State) : LineBlock :=
  let w := proposedWidth s
  orderedSet 0x07 [BitVec.ofNat 8 w, (lanesFor w (s.acd.good &&& s.acd.twinGood)).zeroExtend 8]

/-- The lanes in training: those not excluded in DETECT, the good ones from then on. -/
def trainingLanes (s : State) : List Nat := if s.acd.train = 1 then (List.range 4).filter (laneTrains s) else goodLanes s

/-- Rows per CORE cycle at a RATE, as a fraction: line rate / 66 bits, per ns (Table 12.2). -/
def rowRate (rate : Nat) : Nat × Nat := if rate = 1 then (5, 32) else if rate = 3 then (75, 176) else (25, 64)

/-- What a lane sends in the present training state (Table 12.4). ALIGN sends TS2 until the good lanes are deskewed, then HELLO,
its sets in consecutive blocks; in a rank conflict HELLO comes each 1 ms, TS2 between (R328). -/
def trainSet (s : State) (n : Nat) : LineBlock :=
  match s.acd.train with
  | 3 =>
    if !(goodLanes s).all (fun m => (s.lane m).aligned) then ts2Set s n
    else
      let at_ := if s.acd.rankConflict then s.acd.rows % (1000000 * (rowRate s.acd.rate).1 / (rowRate s.acd.rate).2)
        else s.acd.rows % 3
      (helloSets s).getD at_ (ts2Set s n)
  | 4 => widthSet s
  | _ => ts1Set s n

/-! ## Blocks and rows (R333) -/

/-- A flit's nine data blocks. -/
def flitBlocks (bs : List Byte) : List LineBlock :=
  (List.range 9).map fun i => { ctl := false, bytes := (bs.drop (8 * i)).take 8 }

/-- A flit is sent: its blocks follow those of the flits before it. -/
def putFlit (s : State) (bs : List Byte) : State := onAcd s fun a => { a with blocks := a.blocks ++ flitBlocks bs }

/-- An idle control block: block type 0x1E. PRESUMED (log 129): the seven bytes after it are 0, as 64b/66b coding has them. -/
def idleBlock : LineBlock := { ctl := true, bytes := 0x1E :: List.replicate 7 0 }
/-- An SKP: an ordered set, block type 0x4B and O-code 0x08 (R326). -/
def skpBlock : LineBlock := orderedSet 0x08 []

/-- The next row of the lanes. In training each sends its ordered set (R326); in ACTIVE (R333), after 4,096 rows an SKP on each;
else the next blocks of the flit stream, in ascending lane order; else, while they do not fill a row, idle on each. DESIGN
CHOICE (log 130): blocks that do not fill a row wait for the flit that does. -/
def nextRow (s : State) : State :=
  let w := s.acd.width
  if s.acd.train ≠ 5 then onAcd s fun a => { a with rows := a.rows + 1, row := (trainingLanes s).map (trainSet s) }
  else if 4096 ≤ s.acd.rows then onAcd s fun a => { a with rows := 0, row := List.replicate w skpBlock }
  else if w ≤ s.acd.blocks.length then
    onAcd s fun a => { a with rows := a.rows + 1, row := a.blocks.take w, blocks := a.blocks.drop w }
  else onAcd s fun a => { a with rows := a.rows + 1, row := List.replicate w idleBlock }

/-- A CORE cycle of the link. -/
def laneCycle (s : State) : State :=
  if s.acd.train = 0 then s
  else
    let (a, b) := rowRate s.acd.rate
    if s.acd.rowPhase + a < b then onAcd s fun d => { d with rowPhase := d.rowPhase + a }
    else nextRow (onAcd s fun d => { d with rowPhase := d.rowPhase + a - b })

end Sys2Proof.Machine
end

