-- ==== Sys2Proof/Machine/Accord.lean ====
section
/-! DEFINITION. Machine/Accord.lean: the Accord twin link (chapter 12): training, flits, credits and replay, mirroring,
pair states, divergence and catch-up. A message is one command or one entry of `acd.out`; the flits of outgoing messages
leave with LINK_FLIT_SEND. -/

namespace Sys2Proof.Machine

/-! ## Lanes and widths (R325, R327) -/

/-- Initial credits of a VC, in flits (Table 12.7). -/
def vcInitial (vc : Nat) : Nat := if vc = 0 then 2048 else if vc = 1 then 128 else 1024

def State.vcCredits (s : State) (vc : Nat) : Nat := storeLook s.acd.credits vc (vcInitial vc)
def onLane (s : State) (n : Nat) (f : LaneState → LaneState) : State :=
  onAcd s fun a => { a with lanes := storePut a.lanes n {} (f (storeLook a.lanes n {})) }

/-! ## Sending (R335 to R338) -/

/-- The LINK flit this end would send now (Table 12.6). -/
def linkNow (s : State) (hb echo : Bool) : LinkFlit :=
  { ack := (s.acd.fseqExp + 65535) % 65536, nak := s.acd.nakOut, hb := hb
    retrain := decide (s.acd.reqPending = some .retrain)
    widthReq := match s.acd.reqPending with
      | some (.width _) => true
      | _ => false
    echo := echo
    widthWanted := match s.acd.reqPending with
      | some (.width w) => w
      | _ => 0
    nakFseq := s.acd.fseqExp, credits := (List.range 3).map fun v => storeLook s.acd.returned v 0, hbSeq := s.acd.hbSeq
    ns := s.ft.ns, epoch := s.acd.epoch, poolFree := (poolEntries s).length }

/-- Send a LINK flit. -/
def sendLink (s : State) (hb echo : Bool) : State :=
  let f := linkNow s hb echo
  putFlit (onAcd s fun a => { a with sentLink := some f }) (linkFlitBytes s f)

/-- A message of the VC can send a flit now: a credit, and a message begun or waiting. -/
def vcReady (s : State) (vc : Nat) : Bool :=
  decide (0 < s.vcCredits vc) && (s.acd.sending.any (fun e => e.vc = vc) || s.acd.out.any (fun m => vcOf m = vc))

/-- Take the first message of `out` that satisfies `p`. -/
def takeMsg (p : AccMsg → Bool) : List AccMsg → Option (AccMsg × List AccMsg)
  | [] => none
  | m :: l => if p m then some (m, l) else (takeMsg p l).map fun r => (r.1, m :: r.2)

/-- The tenants backlogged on a VC, by their oldest message (R220). A unit is a flit. -/
def accBacklog (s : State) (vc : Nat) : List Backlog :=
  let mine := s.acd.out.filter fun m => vcOf m = vc
  (mine.foldl (fun l m => setAdd l (msgTenant m)) []).map fun n =>
    { tenant := n, note := s.schedNote n, cost := 64 }

/-- Begin the next message of a VC: the oldest on VC1, by the notes on VC0 and VC2, its first flit selected and charged
(R338, R220). -/
def beginMsg (s : State) (vc : Nat) : State :=
  if s.acd.sending.any fun e => e.vc = vc then s
  else
    let start (s : State) (idle : Bool) (p : AccMsg → Bool) : State :=
      match takeMsg p s.acd.out with
      | some (m, rest) =>
        onAcd s fun a => { a with out := rest, sending := a.sending ++ [{ vc := vc, msg := m, idle := idle, left := flitsOf s m }] }
      | none => s
    if vc = 1 then start s false fun m => vcOf m = 1
    else
      let bl := accBacklog s vc
      let (pick, d) := selectUnit s 3 bl (pruneDrr bl (storeLook s.fratra.accDrr vc {}))
      let s := { s with fratra := { s.fratra with accDrr := storePut s.fratra.accDrr vc {} d } }
      match pick with
      | some (b, idle) => start (chargeUnit s 3 b idle) idle fun m => decide (vcOf m = vc ∧ msgTenant m = b.tenant)
      | none => s

/-- A further flit of a message in progress is charged as its first was (R221, R223): tokens or idle fill of a Top tenant, the
deficits of a Heart or Base tenant and of its note. -/
def chargeFlit (s : State) (vc n : Nat) (idle : Bool) : State :=
  let note := s.schedNote n
  if note = 0 then chargeUnit s 3 { tenant := n, note := 0, cost := 64 } idle
  else
    let d := storeLook s.fratra.accDrr vc {}
    { s with fratra := { s.fratra with
        accDrr := storePut s.fratra.accDrr vc {}
          { d with tenDef := storeModify d.tenDef n 0 (· - 64), noteDef := storeModify d.noteDef note 0 (· - 64) } } }

/-- Send one flit of the message begun on a VC: a credit is spent, it is charged, and it is held until acknowledged (R336,
R337). -/
def sendFlit (s : State) (vc : Nat) : State :=
  match s.acd.sending.find? fun e => e.vc = vc with
  | none => s
  | some e =>
    let others := s.acd.sending.filter fun e => e.vc ≠ vc
    match e.left with
    | [] => onAcd s fun a => { a with sending := others, sentMsgs := a.sentMsgs ++ [e.msg] }
    | f :: rest =>
      let s := if vc = 1 ∨ e.fresh then s else chargeFlit s vc (msgTenant e.msg) e.idle
      let bytes := flitBytes vc s.acd.fseqNext f
      let s := onAcd s fun a =>
        { a with
          credits := storePut a.credits vc (vcInitial vc) (storeLook a.credits vc (vcInitial vc) - 1)
          retry := a.retry ++ [{ fseq := a.fseqNext, vc := vc, bytes := bytes }], fseqNext := (a.fseqNext + 1) % 65536
          sending := if rest.isEmpty then others else others ++ [{ e with fresh := false, left := rest }]
          sentMsgs := if rest.isEmpty then a.sentMsgs ++ [e.msg] else a.sentMsgs }
      putFlit (bump s Pg.ACD 0x040) bytes

/-- The VC of the next sequenced flit: VC1, else VC0 and VC2 by deficit round-robin in flits (R338). -/
def nextVc (s : State) : Option (Nat × Nat × Nat) :=
  let other := if s.acd.vcTurn = 0 then 2 else 0
  let w (vc : Nat) := if vc = 0 then s.fld Pg.ACD Off.ACD_VC_W 7 0 else s.fld Pg.ACD Off.ACD_VC_W 15 8
  if vcReady s 1 then some (1, s.acd.vcTurn, s.acd.vcLeft)
  else if vcReady s s.acd.vcTurn ∧ 0 < s.acd.vcLeft then some (s.acd.vcTurn, s.acd.vcTurn, s.acd.vcLeft - 1)
  else if vcReady s other then some (other, other, w other - 1)
  else if vcReady s s.acd.vcTurn then some (s.acd.vcTurn, s.acd.vcTurn, w s.acd.vcTurn - 1)
  else none

/-- Send what credits and the retry buffer allow, at most `fuel` flits. -/
def drainLink : Nat → State → State
  | 0, s => s
  | fuel + 1, s =>
    if 4096 ≤ s.acd.retry.length then s
    else
      match nextVc s with
      | none => s
      | some (vc, turn, left) =>
        drainLink fuel (sendFlit (beginMsg (onAcd s fun a => { a with vcTurn := turn, vcLeft := left }) vc) vc)

/-- The flits of a received message have been accepted in order; its consumer takes it and returns the credits, those
of VC0 not while no program can be taken (R336, R337, R342). A LINK flit leaves after every 64 sequenced flits (R335). -/
def acceptFlits (s : State) (m : AccMsg) : State :=
  let n := max 1 (msgFlits s m)
  let vc := vcOf m
  let hold := vc = 0 && allFloor s
  let s := onAcd s fun a =>
    { a with
      fseqExp := (a.fseqExp + n) % 65536, nakOut := false
      owedVc0 := if hold then a.owedVc0 + n else a.owedVc0
      returned := if hold then a.returned else storePut a.returned vc 0 ((storeLook a.returned vc 0 + n) % 65536) }
  let s := bumpBy s Pg.ACD 0x048 n
  if s.acd.fseqExp / 64 = (s.acd.fseqExp + 65536 - n) % 65536 / 64 then s else sendLink s false false

/-- A message can arrive: the link is ACTIVE and the machine in RUN (R503: none in HARVEST). -/
def linkTakes (s : State) : Bool := s.acd.train = 5 && s.inRun

/-- Put a message out to the twin. -/
def tell (s : State) (m : AccMsg) : State := onAcd s fun a => { a with out := a.out ++ [m] }

/-- NOTICE goes to the twin when the link is ACTIVE (R352). -/
def tellNotice (s : State) (kind : Nat) : State :=
  if s.acd.train = 5 then tell s (.notice kind s.acd.epoch s.ft.ns) else s

/-! ## Pair states (R350) -/

/-- This twin acknowledges the tenant's writes without the other: it admits them outside PAIRED and CATCHUP, or the tenant is
unmatched there (R340, R350). -/
def degraded (s : State) (n : Nat) : Bool :=
  s.mirrored n && s.tenActive n && !writeFenced s n && s.acd.pair ≠ .joining &&
    ((s.acd.pair ≠ .paired && s.acd.pair ≠ .catchup) || s.unmatched n)

/-- MIRROR_DEGRADED of every tenant of a kind. -/
def flagDegraded (p : Nat → Bool) (s : State) : State :=
  (List.range 64).foldl (fun s n => if p n then setFlag s (Pg.TEN n) 9 else s) s

/-- Every mirrored tenant whose writes this twin admits without the other is degraded (R350). -/
def noteDegraded (s : State) : State := flagDegraded (degraded s) s

/-- Those are degraded that a change has made so. -/
def newlyDegraded (before after : State) : State := flagDegraded (fun n => degraded after n && !degraded before n) after

/-- Enter a pair state: PAIR_CHG, TWIN_LOST on ISOLATED, MIRROR_DEGRADED where this twin acts as lead (R350). -/
def setPair (s : State) (p : Pair) : State :=
  if s.acd.pair = p then s
  else
    let s := setFlag (onAcd s fun a => { a with pair := p }) Pg.ACD 3
    let s := onlyIf (p = .isolated) (fun s => setFlag s Pg.ACD 4) s
    noteDegraded s

/-- The epoch of a separation (R323). -/
def separationEpoch (s : State) : Nat := 2 * (max s.acd.epoch s.acd.twinEpoch / 2) + 2 + (1 - s.rank)

/-- Answer every write that waits for MIRRORED at ACCEPTED (R192, R351). -/
def answerAccepted (s : State) : State :=
  s.fratra.ops.foldl (fun s e => match e.2.phase with
    | .waitTwin f => sendFinal s e.1 e.2 { f with mirrored := false } []
    | _ => onOp s e.1 fun o => { o with twinStage := none }) s

/-- The whole mirror backlog enters the divergence set (R351, R354). -/
def backlogToDiv (s : State) : State :=
  let l := s.acd.backlog
  l.foldl (fun s b => recordDiv s b.tenant b.key b.version s.acd.epoch b.deleted []) (onAcd s fun a => { a with backlog := [] })

/-- Leave PAIRED, CATCHUP or JOINING for SPLIT, ISOLATED or AWAY (R323, R351). -/
def separate (s : State) (p : Pair) : State :=
  let s := bump s Pg.ACD 0x080
  let s := backlogToDiv (answerAccepted s)
  let e := separationEpoch s
  let s := onAcd s fun a =>
    { a with
      epoch := e, retry := a.retry.filter (fun f => f.vc = 1), out := a.out.filter (fun m => vcOf m = 1)
      sending := a.sending.filter (fun m => m.vc = 1), resolving := [], resolved := [], twinDiv := [], listEnded := []
      handover := [], stagesOut := [], lagging := [], mseqExp := [], joinTimer := false }
  let s := onlyIf (s.ftl.health.healing && decide (damageCount s .healing ≠ 0))
    (fun s => onHealth s fun h => { h with waitingTwin := true }) s
  setPair s p

/-- SPLIT with the Ethernet path up, ISOLATED with it down (Table 12.9). -/
def apartPair (s : State) : Pair := if s.acd.ethPath then .split else .isolated

/-! ## Leaving ACTIVE, and loss (R327, R337, R348) -/

/-- Enter DETECT: every lane starts over; LINK_DOWN once when the link had been ACTIVE (R327, R329). A rank conflict is over, and
with it the JOINING of a twin that has no partner (Table 12.9). -/
def enterDetect (s : State) : State :=
  let down := s.acd.hadActive && !s.acd.viaDetect
  let s := onlyIf (s.acd.rankConflict && decide (s.acd.partner = 0)) (fun s => setPair s .alone) s
  let r := s.fld Pg.ACD Off.ACD_ACD_CFG 1 0
  let s := onAcd s fun a =>
    { a with train := 1, lanes := [], good := 0, twinGood := 0, helloOk := false, viaDetect := true, following := none
             reqPending := none, rankConflict := false, rate := if r = 0 then 3 else r, blocks := [], row := [], rows := 0 }
  onlyIf down (fun s => setFlag s Pg.ACD 1) s

/-- The data of the link starts over: retry buffer, credits and sequence numbers (R337). -/
def linkReset (s : State) : State :=
  onAcd s fun a =>
    { a with fseqNext := 0, fseqExp := 0, nakOut := false, retry := [], replay := [], replayTicks := [], credits := []
             returned := [], seenReturned := [], owedVc0 := 0, sending := [], vcTurn := 2, vcLeft := 0, misses := 0
             hbOk := false, grace := false, reqPending := none, following := none }

/-- Accord loss (R348): not declared in HARVEST (R503). -/
def declareLoss (s : State) : State :=
  if s.pwr.state = .harvest then s
  else
    let s := if s.acd.train = 5 then enterDetect s else s
    let s := linkReset s
    if s.acd.pair = .paired ∨ s.acd.pair = .catchup then separate s (apartPair s) else s

/-- This end asks for a retrain or width change (R330, R331); the LINK flit that asks leaves at once. -/
def requestLink (s : State) (r : LinkReq) : State :=
  if s.acd.train ≠ 5 ∨ s.acd.reqPending.isSome = true then s
  else sendLink (onAcd s fun a => { a with reqPending := some r, reqByCmd := false }) false false

/-- ACD_CMD asks for it: the request was started through the page (PAGE_STAT BUSY, R61). -/
def commandLink (s : State) (r : LinkReq) : State :=
  let idle := s.acd.reqPending.isNone
  onAcd (requestLink s r) fun a => { a with reqByCmd := if idle then a.reqPending.isSome else a.reqByCmd }

/-- Both ends follow a request: a retrain enters EQUALIZE, a width change WIDTH (R331). -/
def followLink (s : State) (r : LinkReq) : State :=
  let s := onAcd s fun a =>
    { a with reqPending := none, following := some r, grace := true, misses := 0, blocks := [], row := [] }
  match r with
  | .retrain =>
    let s := bump s Pg.ACD 0x070
    let good := (List.range 4).foldl (fun (g : BitVec 4) n =>
      if laneTrains s n then g ||| BitVec.ofNat 4 (2 ^ n) else g) 0
    onAcd s fun a =>
      { a with train := 2, good := good
               lanes := a.lanes.map fun e => (e.1, { e.2 with eqDone := false, aligned := false, requests := 0 }) }
  | .width _ => onAcd (bump s Pg.ACD 0x078) fun a => { a with train := 4 }

/-! ## Training (Table 12.4) -/

/-- EQUALIZE ends when every good lane is equalised. -/
def equalizeDone (s : State) : State :=
  if s.acd.train = 2 ∧ !(goodLanes s).isEmpty ∧ (goodLanes s).all (fun n => (s.lane n).eqDone) then
    onAcd s fun a => { a with train := 3 }
  else s

/-- A lane is not good any longer; with none left the link returns to DETECT. -/
def dropLane (s : State) (n : Nat) : State :=
  let s := onAcd s fun a => { a with good := a.good &&& ~~~ BitVec.ofNat 4 (2 ^ n) }
  if s.acd.good = 0 then enterDetect s else s

/-- TS1: eight consecutive sets on a lane (R327). In DETECT a lane locks; sets on a lane that has locked already say
that 1 ms has passed with no further lane, and DETECT ends. -/
def doTs1 (t : Ts1) (s : State) : State :=
  if 4 ≤ t.lane ∨ laneTrains s t.lane = false ∨ t.rate ≠ s.acd.rate then s
  else if s.acd.train = 1 then
    let s := bumpBy s (Pg.ACL t.lane) 0x050 8
    if (s.lane t.lane).locked then
      let good := (List.range 4).foldl (fun (g : BitVec 4) n =>
        if (s.lane n).locked then g ||| BitVec.ofNat 4 (2 ^ n) else g) 0
      onAcd s fun a => { a with train := 2, good := good }
    else onlyIf t.locked (fun s => onLane s t.lane fun l => { l with locked := true }) s
  else if s.acd.train = 2 ∧ s.acd.good.getLsbD t.lane then
    let s := bumpBy s (Pg.ACL t.lane) 0x050 8
    let l := s.lane t.lane
    let forced := s.fld (Pg.ACL t.lane) Off.ACL_LANE_CFG 7 4
    let preset := if forced ≠ 0 then forced else if t.request ≠ 0 then t.request else l.preset
    let asks := if t.request ≠ 0 then l.requests + 1 else l.requests
    if 8 < asks then equalizeDone (dropLane s t.lane)
    else
      let s := onLane s t.lane fun l =>
        { l with locked := t.locked, preset := preset, requests := asks, eyeH := t.eyeH, eyeV := t.eyeV
                 eqDone := l.eqDone || t.eqDone }
      equalizeDone (onlyIf (t.eqDone && !l.eqDone) (fun s => setFlag s (Pg.ACL t.lane) 1) s)
  else s

/-- TS2: a lane of ALIGN is deskewed, by at most 32 blocks. -/
def doTs2 (lane : Nat) (good : BitVec 4) (skew : Nat) (s : State) : State :=
  if s.acd.train = 3 ∧ lane < 4 ∧ s.acd.good.getLsbD lane then
    let s := onAcd (bump s (Pg.ACL lane) 0x050) fun a => { a with twinGood := good }
    if skew ≤ 32 then
      onAcd (onLane s lane fun l => { l with aligned := true, skew := skew }) fun a => { a with rows := 0 }
    else s
  else s

/-- Remove every key of the mirrored tenants, as a purge does, keeping slots and durable fields (R324). -/
def dropMirrored (s : State) : State :=
  let s := (List.range 64).foldl (fun s n =>
    if s.mirrored n then (s.ten n).keys.foldl (fun s e => eraseKey s n e) s else s) s
  s.fratra.swaps.foldl (fun s w =>
    if s.mirrored w.tenant then
      let s := dropSwap s w
      match w.entry with
      | some p => setEntry s p { s.entry p with status := .cancelled }
      | none => s
    else s) s

/-- Adoption (R324): the other's serial, the larger epoch; the non-source side removes its mirrored keys, the source's
divergence is FULL. -/
def adoptTwin (s : State) (h : Hello) (source : Bool) : State :=
  let s := onAcd s fun a =>
    { a with partner := h.serial, epoch := max a.epoch h.epoch, adopt := none, helloOk := true }
  if source then (List.range 64).foldl (fun s n => if s.mirrored n then makeDivFull s n else s) s
  else
    let s := dropMirrored s
    onAcd s fun a => { a with div := a.div.filter (fun e => !s.mirrored e.1), divFull := a.divFull.filter (fun n => !s.mirrored n) }

/-- The partner decision of Table 12.1, and adoption by command. -/
def decidePartner (s : State) (h : Hello) : State :=
  let known := decide (s.acd.partner = h.serial) && decide (h.serial ≠ 0)
  let third := decide (s.acd.partner ≠ 0) && !known
  if known && h.knowsYou then onAcd s fun a => { a with helloOk := true }
  else if !third && !h.third && !(holdsKeys s && h.holdsKeys) then
    adoptTwin s h (if h.holdsKeys then false else if holdsKeys s then true else s.rank = 0)
  else
    let s := setPair s .foreign
    match s.acd.adopt, h.adopt with
    | some src, true =>
      if src = h.adoptSrc then internalErr (onAcd s fun a => { a with adopt := none }) Pg.ACD 0x40
      else adoptTwin s h src
    | _, _ => s

/-- HELLO in ALIGN, on every good lane deskewed (R324, R327, R328). -/
def doHello (h : Hello) (s : State) : State :=
  if s.acd.train = 3 ∧ (goodLanes s).all (fun n => (s.lane n).aligned) then
    let s := onAcd s fun a => { a with twin := some h, twinGood := h.good, twinEpoch := h.epoch }
    if h.rank = s.rank then setPair (onAcd s fun a => { a with rankConflict := true, rows := 0 }) .joining
    else
      let s := decidePartner (onAcd s fun a => { a with rankConflict := false }) h
      onAcd s fun a => { a with train := 4 }
  else s

/-! ## Divergence and catch-up (R354 to R357) -/

/-- Keys still to receive: those of the reunion that are HEALING (CATCHUP_LEFT). -/
def catchupLeft (s : State) : Nat :=
  (s.acd.toReceive.filter fun k => decide (((s.findKey k.1 k.2).map KeyEntry.damage) = some .healing)).length

/-- This side's list of a tenant: its divergence entries, or every key it holds when FULL (R355). -/
def divItems (s : State) (n : Nat) : List DivItem :=
  if s.acd.divFull.contains n then
    (s.ten n).keys.map fun e => { key := e.key, version := e.version, epoch := e.epoch, deleted := false }
  else
    (storeLook s.acd.div n []).map fun e => { key := e.key, version := e.version, epoch := e.epoch, deleted := e.deleted }

/-- Mirrored tenants whose resolve phase has not ended, in the order Top, Heart, Base (R355). -/
def resolveQueue (s : State) : List Nat :=
  (healOrder s).filter fun n => s.mirrored n && !s.acd.resolved.contains n

/-- Send a tenant's list at the start of its resolve phase. -/
def sendDivList (s : State) (n : Nat) : State :=
  if s.acd.resolving.contains n then s
  else
    let l := divItems s n
    onAcd s fun a =>
      { a with resolving := setAdd a.resolving n
               out := a.out ++ [.divList n (s.acd.divFull.contains n) l, .divEnd n l.length] }

/-- (epoch, version) as one number, epoch first (R356). -/
def newer (e1 v1 e2 v2 : Nat) : Bool := decide (e2 < e1 ∨ (e1 = e2 ∧ v2 < v1))

/-- A key that this side is to receive becomes HEALING and is asked for; a deletion removes it (R356, R357). -/
def receiveItem (s : State) (n : Nat) (d : DivItem) : State :=
  let old := s.findKey n d.key
  if d.deleted then
    match old with
    | some e => eraseKey s n e
    | none => s
  else
    let e : KeyEntry := old.getD { key := d.key, content := .value [], version := d.version, epoch := d.epoch }
    let e := { e with damage := .healing }
    let s := putKey (noteFirstKey (if old.isNone then makeSlot s else s) n) n e
    let s := onAcd s fun a =>
      { a with toReceive := a.toReceive.filter (fun k => k ≠ (n, d.key)) ++ [(n, d.key)] }
    keyEvent (setFlag (askTwin s n e) (Pg.TEN n) 7) n d.key 0x000C

/-- Decide one key that the twin listed (R356). `mine` is this side's item of it, if it listed it. -/
def decideItem (s : State) (n : Nat) (mine : List DivItem) (bothPlain : Bool) (d : DivItem) : State :=
  let here := (s.findKey n d.key).map fun e => (e.epoch, e.version)
  match mine.find? fun m => m.key = d.key with
  | some m =>
    let s := onlyIf (bothPlain && decide ((m.epoch, m.version) ≠ (d.epoch, d.version))) (fun s => bump s Pg.ACD 0x088) s
    if newer d.epoch d.version m.epoch m.version then receiveItem s n d else s
  | none =>
    match here with
    | some (e, v) => if newer d.epoch d.version e v then receiveItem s n d else s
    | none => if d.deleted then s else receiveItem s n d

/-- End a tenant's resolve phase: every key listed by the twin is decided, and the version counter takes the larger
(R355, R356). Entries whose other side stands, and deletions, are settled. -/
def resolveTenant (s : State) (n : Nat) : State :=
  let mine := divItems s n
  let (full, theirs) := storeLook s.acd.twinDiv n (false, [])
  let plain := !full && !s.acd.divFull.contains n
  let s := theirs.foldl (fun s d => decideItem s n mine plain d) s
  let top := theirs.foldl (fun v d => max v d.version) (s.ten n).verCtr
  let s := onTen s n fun t => { t with verCtr := top }
  let keep (e : DivEntry) : Bool :=
    !e.deleted && !theirs.any fun d => decide (d.key = e.key) && newer d.epoch d.version e.epoch e.version
  onAcd s fun a =>
    { a with
      div := storePut a.div n [] ((storeLook a.div n []).filter keep), resolved := setAdd a.resolved n
      resolving := setDel a.resolving n, listEnded := setDel a.listEnded n
      twinDiv := storeErase a.twinDiv n }

/-- The pair becomes PAIRED when every mirrored tenant is resolved and nothing is left to receive (R357). -/
def pairedCheck (s : State) : State :=
  if s.acd.pair = .catchup ∧ (resolveQueue s).isEmpty ∧ catchupLeft s = 0 then
    let s := onAcd s fun a =>
      { a with toReceive := [], div := a.div.filter (fun e => !s.mirrored e.1), divFull := a.divFull.filter (fun n => !s.mirrored n) }
    setFlag (setPair s .paired) Pg.ACD 6
  else s

/-- Take the resolve phases in order as far as the twin's lists have ended, at most `fuel` of them. -/
def resolveOn : Nat → State → State
  | 0, s => s
  | fuel + 1, s =>
    match resolveQueue s with
    | [] => onAcd s fun a => { a with epoch := max a.epoch a.twinEpoch }
    | n :: _ =>
      let s := sendDivList s n
      if s.acd.listEnded.contains n then resolveOn fuel (resolveTenant s n) else s

/-- LEAD_MAP of this twin (Table 12.7). -/
def leadMapNow (s : State) : List Byte :=
  (List.range 64).map fun n =>
    BitVec.ofNat 8 (s.leadRank n + 2 * s.mirrorPolicy n + b2n (s.tenActive n) 128)

/-- PORT_MACS of this twin. -/
def portMacsNow (s : State) : AccMsg :=
  .portMacs ((List.range 4).map s.portMac)
    ((List.range 4).foldl (fun (m : BitVec 4) k => if s.portUp k then m ||| BitVec.ofNat 4 (2 ^ k) else m) 0)

/-- A reunion begins (R355): REUNION, TAKEN_OVER cleared, the maps are exchanged, HEALING keys are asked for again. -/
def enterCatchup (s : State) : State :=
  let s := setFlag (setPair s .catchup) Pg.ACD 5
  let s := onAcd s fun a =>
    { a with takenOver := false, resolving := [], resolved := [], twinDiv := [], listEnded := [], mseqExp := []
             joinTimer := false }
  let s := onlyIf (s.rank = 0) (fun s => tell s (.leadMap (leadMapNow s))) s
  let s := tell s (portMacsNow s)
  let s := onHealth s fun h => { h with waitingTwin := false }
  let s := (healOrder s).foldl (fun s n =>
    if s.mirrored n then
      (s.ten n).keys.foldl (fun s e => if e.damage = .healing then askTwin s n e else s) s
    else s) s
  pairedCheck (resolveOn 65 s)

/-- `a` is at or below `b` among 16-bit sequence numbers. -/
def fseqLe (a b : Nat) : Bool := decide ((b + 65536 - a % 65536) % 65536 < 32768)

/-- A replay from a flit on, in FSEQ order (R336), and the retrain that too many cause (R331). -/
def startReplay (s : State) (l : List Nat) : State :=
  if l.isEmpty then s
  else
    let now := s.hub.tick
    let s := bump s Pg.ACD 0x058
    let s := onAcd s fun a =>
      { a with replay := l, replayTicks := now :: a.replayTicks.filter fun t => decide (now < t + 50000) }
    let many := decide (s.fld Pg.ACD Off.ACD_ACD_CFG 31 24 < s.acd.replayTicks.length)
    onlyIf (many && s.bit Pg.ACD Off.ACD_ACD_CFG 8) (fun s => requestLink s .retrain) s

/-- WIDTH: both ends have the other's proposal, and the link is ACTIVE at the smaller (R327, R332). -/
def doWidth (width : Nat) (_lanes : BitVec 4) (s : State) : State :=
  let w := min (proposedWidth s) width
  if s.acd.train ≠ 4 ∨ w = 0 then s
  else
    let use := lanesFor w (s.acd.good &&& s.acd.twinGood)
    let changed := s.acd.hadActive && decide (s.acd.width ≠ w)
    let up := s.acd.viaDetect
    let resume := s.acd.hadActive
    let s := onAcd s fun a =>
      { a with
        train := 5, width := w, blocks := [], rows := 0, rowPhase := 0, row := [], following := none, reqPending := none
        viaDetect := false, hadActive := true
        replay := []
        lanes := a.lanes.map fun e => (e.1, { e.2 with inUse := use.getLsbD e.1 }) }
    let s := onlyIf up (fun s => setFlag s Pg.ACD 0) s
    let s := onlyIf changed (fun s => setFlag s Pg.ACD 7) s
    let s := sendLink s false false
    let s := onlyIf resume (fun s => startReplay s (s.acd.retry.map HeldFlit.fseq)) s
    if s.acd.helloOk && s.acd.pair ≠ .paired && s.acd.pair ≠ .catchup then enterCatchup s else s

/-- TRAIN_LIMIT: the state fails its limit (R327). EQUALIZE goes on with the lanes that passed it, if any did; in a rank
conflict the link stays in ALIGN (R328). -/
def doTrainLimit (s : State) : State :=
  let passed := (goodLanes s).filter fun n => (s.lane n).eqDone
  if s.acd.train = 0 ∨ s.acd.train = 5 ∨ s.acd.rankConflict = true then s
  else if s.acd.train = 2 ∧ !passed.isEmpty then
    equalizeDone (onAcd s fun a =>
      { a with good := passed.foldl (fun (g : BitVec 4) n => g ||| BitVec.ofNat 4 (2 ^ n)) 0 })
  else
    let s := enterDetect s
    if s.acd.pair = .joining && !s.acd.joinTimer && s.inRun then separate s (apartPair s) else s

/-- RATE_DWELL: with RATE = 0, DETECT tries the next rate (R329). -/
def doRateDwell (s : State) : State :=
  if s.acd.train = 1 ∧ s.fld Pg.ACD Off.ACD_ACD_CFG 1 0 = 0 then
    onAcd s fun a => { a with rate := if a.rate ≤ 1 then 3 else a.rate - 1, lanes := [] }
  else s

/-! ## LINK flits (R330, R335 to R337) -/

/-- Acknowledgement, NAK and credits of a LINK flit: the ACK first (Table 12.13). -/
def takeAck (f : LinkFlit) (s : State) : State :=
  let s := onAcd s fun a => { a with retry := a.retry.filter fun h => !fseqLe h.fseq f.ack }
  let s := onAcd s fun a => { a with replay := a.replay.filter fun q => a.retry.any fun h => h.fseq = q }
  let s := (List.range 3).foldl (fun s vc =>
    let now := f.credits.getD vc 0 % 65536
    let back := (now + 65536 - storeLook s.acd.seenReturned vc 0) % 65536
    onAcd s fun a =>
      { a with seenReturned := storePut a.seenReturned vc 0 now
               credits := storePut a.credits vc (vcInitial vc)
                 (min (vcInitial vc) (storeLook a.credits vc (vcInitial vc) + back)) }) s
  if f.nak then startReplay s ((s.acd.retry.filter fun h => fseqLe f.nakFseq h.fseq).map HeldFlit.fseq) else s

/-- The requests of a LINK flit (R330). -/
def takeRequest (f : LinkFlit) (s : State) : State :=
  let asked : Option LinkReq :=
    if f.echo then none else if f.retrain then some .retrain else if f.widthReq then some (.width f.widthWanted) else none
  match s.acd.reqPending, asked with
  | some r, none => if f.echo then followLink s r else s
  | some _, some q => if s.rank = 0 then s else followLink (sendLink s false true) q
  | none, some q => followLink (sendLink s false true) q
  | none, none => s

/-- Handovers as heartbeats pass: the new lead admits writes once no MIRROR of the tenant came in a whole interval; the
old lead's entry goes when nothing of the tenant is left to acknowledge (R340). -/
def handoverBeat (hb : Bool) (s : State) : State :=
  onAcd s fun a =>
    { a with handover := a.handover.filterMap fun e =>
        if e.2 = 3 then
          if a.backlog.all (fun b => b.tenant ≠ e.1) && s.fratra.ops.all (fun o => o.2.id.tenant ≠ e.1) then none else some e
        else if hb then if e.2 = 1 then none else some (e.1, 1) else some e }

/-- LINK_FLIT; what the lanes' receivers counted since the one before goes to their pages (R359; DESIGN CHOICE, log 136). -/
def doLinkFlit (f : LinkFlit) (s : State) : State :=
  if !linkTakes s then s
  else
    let s := (List.range 4).foldl (fun s n =>
      bumpBy (bumpBy s (Pg.ACL n) 0x040 (f.blockErr.getD n 0)) (Pg.ACL n) 0x058 (f.skpAdj.getD n 0)) s
    let s := onAcd s fun a =>
      { a with twinEpoch := f.epoch, poolFree := f.poolFree
               misses := if f.hb then 0 else a.misses, hbOk := a.hbOk || f.hb }
    pairedCheck (handoverBeat f.hb (takeRequest f (takeAck f s)))

/-- LINK_FLIT_SEND: the LINK flit, then replays, then new flits as credits allow (R335, R338). -/
def doLinkFlitSend (hb : Bool) (s : State) : State :=
  if s.acd.train ≠ 5 then s
  else
    let s := onAcd s fun a => { a with sentMsgs := [], hbSeq := if hb then (a.hbSeq + 1) % 2 ^ 32 else a.hbSeq }
    let s := onlyIf (!allFloor s) (fun s => onAcd s fun a =>
      { a with owedVc0 := 0, returned := storePut a.returned 0 0 ((storeLook a.returned 0 0 + a.owedVc0) % 65536) }) s
    let s := sendLink s hb false
    let s := (s.acd.retry.filter fun h => s.acd.replay.contains h.fseq).foldl (fun s h => putFlit s h.bytes) s
    pairedCheck (drainLink 4096 (onAcd s fun a => { a with replay := [] }))

/-- REPLAY_TIMEOUT: replay from the oldest held flit (R336). -/
def doReplayTimeout (s : State) : State :=
  if s.acd.train = 5 ∧ !s.acd.retry.isEmpty then
    startReplay (bump s Pg.ACD 0x060) (s.acd.retry.map HeldFlit.fseq)
  else s

/-- CRC_ERR: the flit and every later one are discarded until the expected FSEQ arrives; a NAK leaves at once (R335,
R336). -/
def doCrcErr (s : State) : State :=
  if s.acd.train = 5 then sendLink (onAcd (bump s Pg.ACD 0x050) fun a => { a with nakOut := true }) false false else s

/-- LOCK_LOST (R331, R359): in ACTIVE a lane in use asks for a retrain, and with no lane locked any longer the link
leaves ACTIVE for DETECT, its data kept for the grace (R348); in a retrain the lane is not good. -/
def doLockLost (n : Nat) (s : State) : State :=
  if 4 ≤ n ∨ (s.lane n).locked = false then s
  else
    let s := bump (setFlag s (Pg.ACL n) 0) (Pg.ACL n) 0x048
    let s := onLane s n fun l => { l with locked := false, aligned := false, eqDone := false }
    if s.acd.train = 5 then
      if (List.range 4).all fun m => !(s.lane m).locked then
        onAcd (enterDetect s) fun a => { a with grace := true, misses := 0 }
      else onlyIf (s.lane n).inUse (fun s => requestLink s .retrain) s
    else if 2 ≤ s.acd.train then equalizeDone (dropLane s n) else s

/-- AUTO_WIDEN (R331). -/
def doAutoWiden (s : State) : State :=
  let cap := min s.maxWidth ((s.acd.twin.map Hello.maxWidth).getD 4)
  onlyIf (s.bit Pg.ACD Off.ACD_ACD_CFG 9 && decide (s.acd.width < cap)) (fun s => requestLink s .retrain) s

/-- HB_MISS: not counted while training or while the grace runs; the eighth in a row is Accord loss (R347, R348). -/
def doHbMiss (s : State) : State :=
  if s.acd.train ≠ 5 ∨ s.acd.grace = true ∨ s.pwr.state = .harvest then s
  else
    let s := onAcd (bump s Pg.ACD 0x068) fun a => { a with misses := a.misses + 1, hbOk := false }
    if 8 ≤ s.acd.misses then declareLoss s else s

/-- RETRAIN_GRACE_EXPIRE (R347, R348). -/
def doGraceExpire (s : State) : State :=
  if s.acd.grace = false ∨ s.pwr.state = .harvest then s
  else if s.acd.train = 5 then onAcd s fun a => { a with grace := false } else declareLoss s

/-- ACD PAGE_CTRL EN went to 0: the transmitters are off and the link is down (the text after Table 12.11). -/
def acdOff (s : State) : State :=
  let g := decide (s.acd.train = 5)
  onAcd (enterDetect s) fun a => { a with train := 0, grace := a.grace || g }

/-- ACD PAGE_CTRL EN is 1 and the core runs: the link trains from DETECT. -/
def acdOn (s : State) : State := if s.acd.train = 0 ∧ s.coreOn then enterDetect s else s

/-! ## Mirroring (R339 to R345) -/

/-- Put a mirrored value or alias into the key index with the lead's version and epoch (R342). -/
def mirrorPut (s : State) (n : Nat) (key : List Byte) (c : Content) (firstNs version epoch : Nat) : State :=
  let old := s.findKey n key
  let (lay, s) := placeContent s n c
  let s := applyCommit s
    { tenant := n, key := key, content := c, layout := lay, firstNs := firstNs, version := version }
  let s := match s.findKey n key with
    | some e => putKey s n { e with epoch := epoch }
    | none => s
  let s := match old with
    | some e => freeLayout s n e.layout
    | none => s
  healCheck (healedCheck s n old)

/-- A mirrored APPEND. -/
def mirrorAppend (s : State) (n : Nat) (m : MirrorOp) (epoch : Nat) : State :=
  match s.findKey n m.key with
  | none => s
  | some e =>
    match e.content with
    | .aliasTo _ => s
    | .value bs =>
      let (lay, s) := appendLayout s n e.layout bs.length m.value.length
      let s := applyCommit s
        { tenant := n, key := m.key, content := .value (bs ++ m.value), layout := lay, firstNs := e.firstNs
          version := m.version }
      match s.findKey n m.key with
      | some k => putKey s n { k with epoch := epoch }
      | none => s

/-- A mirrored stage: this twin's own pool entry, or none when its pool is full (R343). -/
def mirrorStage (s : State) (n : Nat) (m : MirrorOp) : State :=
  match m.swap with
  | none => s
  | some (ns, ident, _) =>
    let skip := m.options.bit 4
    let sw (p : Option Nat) : Swap :=
      { tenant := n, aliasKey := m.key, target := m.value, ident := ident, ns := ns, skipLate := skip, admitNs := s.ft.ns
        entry := p }
    let add (s : State) (p : Option Nat) : State :=
      { s with fratra := { s.fratra with swaps := s.fratra.swaps ++ [sw p] } }
    match poolEntries s with
    | p :: _ => setEntry (add s (some p)) p (swapEntry n ident ns skip)
    | [] => setFlag (add s none) Pg.TAT 4

/-- The lead's commit or discard of a staged swap (R197, R343). -/
def mirrorTimed (s : State) (n : Nat) (m : MirrorOp) (epoch : Nat) : State :=
  let ident := m.offset
  let fired := (n, ident, m.key)
  if m.version = 0 then
    match findSwap s n ident with
    | some w => if w.entry.isNone then dropSwap s w else s
    | none => s
  else if s.fratra.timed.contains fired then
    let s := { s with fratra := { s.fratra with timed := s.fratra.timed.erase fired } }
    match s.findKey n m.key with
    | some e => putKey s n { e with version := m.version, epoch := epoch }
    | none => s
  else
    match findSwap s n ident with
    | none => s
    | some w =>
      if w.entry.isNone then
        let s := bump (dropSwap s w) Pg.KVX 0x060
        mirrorPut s n w.aliasKey (.aliasTo w.target) s.ft.ns m.version epoch
      else
        { s with fratra := { s.fratra with
            swaps := s.fratra.swaps.map fun v => if v = w then { w with leadVer := some m.version } else v } }

/-- Apply one mirrored operation (R342, Table 12.8). -/
def applyMirror (s : State) (n : Nat) (m : MirrorOp) : State :=
  let epoch := s.acd.twinEpoch
  let s := onTen s n fun t => { t with verCtr := max t.verCtr m.version }
  match m.opcode with
  | 0x10 =>
    let first := s.ft.ns
    mirrorPut s n m.key (.value m.value) first m.version epoch
  | 0x12 => mirrorAppend s n m epoch
  | 0x14 =>
    match s.findKey n m.key with
    | some e => healCheck (eraseKey s n e)
    | none => s
  | 0x15 =>
    match s.findKey n m.key with
    | some e =>
      putKey s n (if m.options.bit 5 then { e with incident := true }
        else if m.options.bit 3 then { e with client := true } else { e with client := false, incident := false })
    | none => s
  | 0x20 => mirrorPut s n m.key (.aliasTo m.value) s.ft.ns m.version epoch
  | 0x21 => if m.options.bit 6 then mirrorTimed s n m epoch else mirrorStage s n m
  | _ => s

/-- This twin takes the tenant's mirrored operations, and `q` is the next. -/
def mirrorTaken (s : State) (n q : Nat) : Bool :=
  (s.acd.pair = .paired || s.acd.pair = .catchup) && s.mirrored n &&
    (!s.leads n || (storeFind s.acd.handover n).isSome) && q = (storeFind s.acd.mseqExp n).getD q

/-- MIRROR (R181, R342): what remains of Table 6.8 is a unicast source (step 1) and a defined opcode (step 9); then the
operation is taken in MSEQ order from the lead of a tenant this twin follows, applied and acknowledged. One whose bytes the
Harvest budget cannot take yet is not taken (R13). -/
def doMirror (n q : Nat) (m : MirrorOp) (s : State) : State :=
  if !linkTakes s then s
  else
    let t := acceptFlits s (.mirror n q m)
    if m.carriage.src.getLsbD 40 then bump t Pg.FWP 0x040
    else if !opDefined m.opcode then t
    else if mirrorTaken t n q then
      let t := applyMirror t n m
      let t := onAcd t fun a =>
        { a with mseqExp := storeInsert a.mseqExp n ((q + 1) % 2 ^ 32)
                 handover := if storeLook a.handover n 0 = 1 then storeInsert a.handover n 2 else a.handover }
      ifRoom s (tell t (.mirrorAck n q m.version))
    else t

/-- `a` is at or below `b` among 32-bit mirror sequence numbers. -/
def mseqLe (a b : Nat) : Bool := seqLe (BitVec.ofNat 32 a) (BitVec.ofNat 32 b)

/-- The oldest unacknowledged write of the tenant committed ASYNC_LAG_MAX or more ago (R344). -/
def lagReached (s : State) (n : Nat) : Bool :=
  match s.acd.backlog.find? fun b => b.tenant = n with
  | some b => decide (b.commitNs + s.fld Pg.ACD Off.ACD_ASYNC_CFG 15 0 * 1000000 ≤ s.ft.ns)
  | none => false

/-- An ASYNC tenant's lag is below ASYNC_LAG_MAX again (R344). -/
def lagCheck (s : State) (n : Nat) : State :=
  if lagReached s n then s else onAcd s fun a => { a with lagging := setDel a.lagging n }

/-- MIRROR_ACK (R342, R344): every earlier MSEQ of the tenant is acknowledged, and waiting writes are MIRRORED. -/
def doMirrorAck (n q _version : Nat) (s : State) : State :=
  if !linkTakes s then s
  else
    let s := acceptFlits s (.mirrorAck n q _version)
    let covered := s.acd.backlog.filter fun b => decide (b.tenant = n) && mseqLe b.mseq q
    let s := onAcd s fun a =>
      { a with backlog := a.backlog.filter (fun b => !(decide (b.tenant = n) && mseqLe b.mseq q))
               stagesOut := a.stagesOut.filter fun g => !(decide (g.1 = n) && mseqLe g.2 q) }
    let s := covered.foldl (fun s b =>
      match b.waiting with
      | none => s
      | some k =>
        match storeFind s.fratra.ops k with
        | none => s
        | some o =>
          match o.phase with
          | .waitTwin f => sendFinal s k o { f with ext := ftNow s } []
          | _ => onOp s k fun o => { o with twinStage := o.twinStage.map fun _ => true }) s
    handoverBeat false (lagCheck s n)

/-- What follows a change of a tenant's LEAD, MIRROR or ACTIVE (R340): rank 0 sends LEAD_MAP; in PAIRED a change of the
lead begins a handover. -/
def leadChanged (s : State) (n : Nat) (old : Word) : State :=
  let new := s.reg (Pg.TEN n) Off.TEN_TEN_CFG
  let m : Word := Word.mask 6 4 ||| Word.mask 0 0
  if old &&& m = new &&& m then s
  else
    let s := onlyIf (s.rank = 0 && (s.acd.pair = .paired || s.acd.pair = .catchup))
      (fun s => tell s (.leadMap (leadMapNow s))) s
    if s.acd.pair = .paired && s.mirrored n && old.bit 6 ≠ new.bit 6 then
      onAcd s fun a => { a with handover := storeInsert a.handover n (if s.leads n then 2 else 3) }
    else s

/-- TEN_CFG with the lead rank, the policy and ACTIVE that a LEAD_MAP byte gives (Table 12.7). -/
def mapCfg (b : Byte) (w : Word) : Word :=
  Word.setFld (Word.setFld (Word.setBit w 0 (b.getLsbD 7)) 5 4 (b.toNat / 2 % 4)) 6 6 (b.toNat % 2)

/-- What a change of a tenant's ACTIVE begins (R214, R230): with ENC, a key where the slot holds none; a tenant reset. -/
def activeChanged (s : State) (n : Nat) (old v : Word) : State :=
  let s := if v.bit 0 && !old.bit 0 && v.bit 7 && (s.slotKey n).isNone then generateNow s n else s
  if old.bit 0 && !v.bit 0 then startTenantReset s n else s

/-- Rank 0 governs LEAD, MIRROR and ACTIVE: rank 1's own values of them are overwritten while PAIRED (R340, Table 12.13). -/
def governed (s : State) (n : Nat) : State :=
  let w := s.reg (Pg.TEN n) Off.TEN_TEN_CFG
  let v := mapCfg (s.acd.twinMap.getD n 0) w
  if s.rank = 1 ∧ s.acd.pair = .paired ∧ s.acd.twinMap.isEmpty = false ∧ v ≠ w then
    setFlag (activeChanged (setReg s (Pg.TEN n) Off.TEN_TEN_CFG v) n w v) Pg.ACD 10
  else s

/-- One tenant's byte of a LEAD_MAP is taken. -/
def takeMapByte (map : List Byte) (s : State) (n : Nat) : State :=
  let old := s.reg (Pg.TEN n) Off.TEN_TEN_CFG
  let w := mapCfg (map.getD n 0) old
  if w = old then s else leadChanged (activeChanged (setReg s (Pg.TEN n) Off.TEN_TEN_CFG w) n old w) n old

/-- LEAD_MAP (R340): rank 1 takes LEAD, MIRROR and ACTIVE of every tenant from it. -/
def doLeadMap (map : List Byte) (s : State) : State :=
  if !linkTakes s then s
  else
    let s := acceptFlits s (.leadMap map)
    let t := onAcd s fun a => { a with twinMap := map }
    if s.rank = 0 then newlyDegraded s t
    else
      let t := newlyDegraded s ((List.range 64).foldl (takeMapByte map) t)
      setFlag (if t.acd.pair = .catchup then pairedCheck (resolveOn 65 t) else t) Pg.ACD 10

/-- NOTICE (R352): in PAIRED or CATCHUP this twin enters AWAY at once. -/
def doNotice (kind epoch ns : Nat) (s : State) : State :=
  if !linkTakes s then s
  else
    let s := acceptFlits s (.notice kind epoch ns)
    let s := onAcd s fun a => { a with twinEpoch := epoch }
    if s.acd.pair = .paired ∨ s.acd.pair = .catchup then separate s .away else s

/-- INCIDENT (R345): the lead applies the event with the follower's t. -/
def doIncident (n t : Nat) (s : State) : State :=
  if !linkTakes s then s
  else
    let s := acceptFlits s (.incident n t)
    if s.bit Pg.KVX Off.KVX_INC_CFG 0 && s.mirrored n && s.leads n then applyIncident s n t else s

/-- PORT_MACS (R346): the latest are used. -/
def doPortMacs (macs : List (BitVec 48)) (links : BitVec 4) (s : State) : State :=
  if !linkTakes s then s
  else onAcd (acceptFlits s (.portMacs macs links)) fun a => { a with twinMacs := macs, twinLinks := links }

/-- RELAY (R181, R346): a request is checked as if it had arrived here; a response leaves on its original port. -/
def doRelay (c : Carriage) (part : List Byte) (s : State) : State :=
  if !linkTakes s then s
  else
    let s := acceptFlits s (.relay c part)
    if s.acd.pair ≠ .paired ∧ s.acd.pair ≠ .catchup then s
    else if (part.headD 0).getLsbD 3 then
      sendTx s c.port { cls := 4, bytes := fratraFrame s c.port c.src c.vid 4 part }
    else arriveFrame s { c with kind := 2 } s.ft.ns part

/-! ## Healing over VC2 (R287, Table 10.3, R357) -/

/-- KEY_REQ: this twin answers with KEY_DATA; an entry of the divergence set that is so copied is settled. -/
def doKeyReq (q : KeyReq) (s : State) : State :=
  if !linkTakes s then s
  else
    let s := acceptFlits s (.keyReq q)
    let n := q.tenant
    let found := if q.nameLost ∧ q.key.isEmpty then (s.ten n).keys.find? fun e => decide (e.version = q.version)
      else s.findKey n q.key
    match found with
    | some e =>
      let bad := decide (e.damage ≠ .none)
      let s := onAcd s fun a =>
        { a with div := storePut a.div n [] ((storeLook a.div n []).filter fun d => decide (d.key ≠ e.key)) }
      tell s (.keyData
        { tenant := n, epoch := e.epoch, present := !bad, deleted := false, absent := false, lost := bad, key := e.key
          version := e.version, content := if bad then .value [] else e.content })
    | none =>
      let gone := (storeLook s.acd.div n []).find? fun d => decide (d.key = q.key) && d.deleted
      tell s (.keyData
        { tenant := n, epoch := (gone.map DivEntry.epoch).getD 0, present := false, deleted := gone.isSome
          absent := gone.isNone, lost := false, key := q.key, version := (gone.map DivEntry.version).getD 0
          content := .value [] })

/-- The HEALING key that an answer is for: by its name, or by its version when the name was lost here. -/
def healTarget (s : State) (d : KeyData) : Option KeyEntry :=
  (s.ten d.tenant).keys.find? fun e =>
    decide (e.damage = .healing) &&
      (decide (e.key = d.key) || (e.nameLost && decide (e.version = d.version)))

/-- Bytes that a heal copies (Table 10.3): the unreadable ranges with the same version and a name, else the whole value. -/
def healBytes (e : KeyEntry) (d : KeyData) : Nat :=
  let len := contentLength d.content
  if e.nameLost ∨ e.version ≠ d.version ∨ e.epoch ≠ d.epoch then len
  else sumBy (fun r => min (4096 * (r.1 + r.2)) len - min (4096 * r.1) len) e.broken

/-- A heal is counted, and recorded in the health log (R291, R297). -/
def countHealed (s : State) (n : Nat) (d : KeyData) (bytes : Nat) : State :=
  let s := bumpBy (bump s Pg.HLTH 0x060) Pg.HLTH 0x068 bytes
  addRecord s (lastEvent s) (hlogRecord s 3 n d.key d.version 0)

/-- Put the twin's bytes in place of a HEALING key (R287 Commit): no version is taken; R254 and R255 place them. Healing leaves
the key's time span as it was (R185); a key received in catch-up takes the time at which it is (DEDUCED, log 19). -/
def healKey (s : State) (n : Nat) (e : KeyEntry) (d : KeyData) (received : Bool) : State :=
  let (lay, s) := placeContent s n d.content
  let s := freeLayout s n e.layout
  let s := if e.key = d.key then s else dropKey s n e.key
  let s := putKey s n
    { e with
      key := d.key, content := d.content, layout := lay, version := d.version, epoch := d.epoch, damage := .none
      nameLost := false, broken := [], firstNs := if received then s.ft.ns else e.firstNs
      lastNs := if received then s.ft.ns else e.lastNs }
  let s := onTen s n fun t => { t with verCtr := max t.verCtr d.version }
  let s := if received then bumpBy (bump s Pg.ACD 0x090) Pg.ACD 0x098 (contentLength d.content)
    else countHealed s n d (healBytes e d)
  healedCheck s n (some { e with key := d.key })

/-- KEY_DATA: the outcomes of Table 10.3, versions compared with their epochs (R356). Bytes that the Harvest budget cannot take
yet are not taken (R13). -/
def doKeyData (d : KeyData) (s0 : State) : State :=
  if !linkTakes s0 then s0
  else
    let s := acceptFlits s0 (.keyData d)
    let n := d.tenant
    match healTarget s d with
    | none => pairedCheck s
    | some e =>
      let received := s.acd.toReceive.contains (n, e.key)
      let s :=
        if d.lost then loseKey s n e (lastEvent s) 0
        else if d.present && !newer e.epoch e.version d.epoch d.version then healKey s n e d received
        else if d.deleted && newer d.epoch d.version e.epoch e.version then
          let s := eraseKey (onTen s n fun t => { t with verCtr := max t.verCtr d.version }) n e
          keyEvent (if received then s else countHealed s n d 0) n e.key 0
        else if e.layout = .none then eraseKey s n e
        else loseKey s n e (lastEvent s) d.version
      let s := onAcd s fun a => { a with toReceive := a.toReceive.filter fun k => k ≠ (n, e.key) }
      ifRoom s0 (pairedCheck (healCheck s))

/-- DIV_LIST (R355): kept for the tenant's resolve phase; discarded for a tenant that is NONE here (Table 12.13). -/
def doDivList (n : Nat) (full : Bool) (l : List DivItem) (s : State) : State :=
  if !linkTakes s then s
  else
    let s := acceptFlits s (.divList n full l)
    if s.acd.pair = .catchup ∧ s.mirrored n = true ∧ s.acd.resolved.contains n = false then
      let old := storeLook s.acd.twinDiv n (false, [])
      onAcd s fun a => { a with twinDiv := storeInsert a.twinDiv n (old.1 || full, old.2 ++ l) }
    else s

/-- DIV_END (R355, R356): the twin's list of the tenant is complete. -/
def doDivEnd (n count : Nat) (s : State) : State :=
  if !linkTakes s then s
  else
    let s := acceptFlits s (.divEnd n count)
    if s.acd.pair = .catchup ∧ s.mirrored n = true ∧ s.acd.resolved.contains n = false then
      pairedCheck (resolveOn 65 (onAcd s fun a => { a with listEnded := setAdd a.listEnded n }))
    else s

/-! ## The Ethernet path (R349) -/

/-- A heartbeat frame from its EtherType on: what follows its addresses and the tag it may have. -/
def beatTyped (f : List Byte) : List Byte :=
  let r := f.drop 12
  if r.take 2 = beBytes 2 0x8100 then r.drop 4 else r

/-- Its payload. -/
def beatPayload (f : List Byte) : List Byte := (beatTyped f).drop 2

/-- A received heartbeat is valid: its EtherType is HB_ETYPE, its tag verifies under slot 64, over the destination address through the Fleet Time, its
serial is the partner's and its rank differs. -/
def beatValid (s : State) (b : EthBeat) : Bool :=
  let p := beatPayload b.frame
  let covered := b.frame.take (b.frame.length - p.length + 36)
  match s.slotKey 64 with
  | none => false
  | some key =>
    decide ((beatTyped b.frame).take 2 = beBytes 2 (s.fld Pg.ACD Off.ACD_HB_ETYPE 15 0) ∧ p.length ≥ 52 ∧ (p.headD 0) = 1 ∧
      (p.drop 36).take 16 = (hmac256 key covered).take 16 ∧ s.acd.partner ≠ 0 ∧
      beNat ((p.drop 4).take 8) = s.acd.partner.toNat ∧ (p.getD 1 0).toNat ≠ s.rank)

/-- PAIR (Table 12.9). -/
def pairNum : Pair → Nat
  | .alone => 0 | .joining => 1 | .paired => 2 | .catchup => 3 | .split => 4 | .isolated => 5 | .away => 6 | .foreign => 7

/-- The bytes of a twin heartbeat frame for one port, FCS left out. -/
def beatFrame (s : State) (k : Nat) (tag : List Byte) : List Byte :=
  let vid := s.fld Pg.ACD Off.ACD_HB_CFG 31 20
  macBytes 0xFFFFFFFFFFFF ++ macBytes (s.portMac k) ++ (if vid = 0 then [] else beBytes 2 0x8100 ++ beBytes 2 vid) ++
    beBytes 2 (s.fld Pg.ACD Off.ACD_HB_ETYPE 15 0) ++ [1, BitVec.ofNat 8 s.rank, 0, 0] ++ beBytes 8 Config.serial.toNat ++
    beBytes 4 s.acd.epoch ++ [BitVec.ofNat 8 (pairNum s.acd.pair),
      BitVec.ofNat 8 s.acd.train, 0, 0] ++ beBytes 4 s.acd.ethSeq ++ ftNow s ++ tag

/-- TWIN_HEARTBEAT_SEND: one frame on each HB port; without a key in slot 64 the tag is free. -/
def doTwinHeartbeatSend (s : State) : State :=
  let ports := s.fld Pg.ACD Off.ACD_HB_CFG 19 16
  if ports = 0 ∨ s.inRun = false then s
  else
    let s := (List.range 4).foldl (fun s k =>
      if ports.testBit k then
        let covered := beatFrame s k []
        let (tag, s) := match s.slotKey 64 with
          | some key => ((hmac256 key covered).take 16, s)
          | none =>
            let (f, s) := drawFree s
            ((List.range 4).flatMap fun i => Word.bytes (Config.freeWord (4 * f + i)), s)
        sendTx s k { cls := 4, bytes := covered ++ tag }
      else s) s
    onAcd s fun a => { a with ethSeq := (a.ethSeq + 1) % 2 ^ 32 }

/-- TWIN_HEARTBEAT: a valid one keeps the Ethernet path up; ISOLATED becomes SPLIT. -/
def doTwinHeartbeat (b : EthBeat) (s : State) : State :=
  if s.inRun = true ∧ beatValid s b = true then
    let s := onAcd s fun a => { a with ethPath := true, twinEpoch := beNat (((beatPayload b.frame).drop 12).take 4) }
    if s.acd.pair = .isolated then setPair s .split else s
  else s

/-- ETH_PATH_DOWN: SPLIT becomes ISOLATED. -/
def doEthPathDown (s : State) : State :=
  if s.acd.ethPath = false ∨ s.pwr.state = .harvest then s
  else
    let s := onAcd s fun a => { a with ethPath := false }
    if s.acd.pair = .split then setPair s .isolated else s

/-- JOIN_WAIT_EXPIRE: JOINING ends unless a known partner has reached ALIGN or both ranks are equal (Table 12.9). -/
def doJoinWaitExpire (s : State) : State :=
  if !s.inRun || s.acd.pair ≠ .joining then s
  else
    let s := onAcd s fun a => { a with joinTimer := false }
    if s.acd.helloOk || s.acd.rankConflict then s else separate s (apartPair s)

/-- LAG_HIGH: the lag of an ASYNC tenant reaches ASYNC_LAG_MAX (R344). -/
def doLagHigh (n : Nat) (s : State) : State :=
  if s.mirrorPolicy n = 2 ∧ lagReached s n then onAcd s fun a => { a with lagging := setAdd a.lagging n } else s

/-! ## ACD_CMD and the page (R353, R358, Table 12.11) -/

/-- The page code of a write to an ACD register, 0 when it is taken; 0x83 for an illegal width field. -/
def acdCheck (s : State) (off : Nat) (w : Word) : Nat :=
  let legal (v : Nat) : Bool := v = 1 || v = 2 || v = 4
  if off = Off.ACD_ACD_CFG then if legal (w.fld 6 4) then 0 else 0x01
  else if off = Off.ACD_HB_ETYPE then
    let e := w.fld 15 0
    let bad := decide (e < 0x0600 ∨ e = 0x8100 ∨ e = 0x88A8 ∨ e = 0x8808 ∨ e = 0x88F7) ||
      decide (e = s.fld Pg.STEER Off.STEER_STEER_CFG 15 0)
    if bad then 0x06 else 0
  else if off = Off.ACD_ACD_CMD then
    if w.bit 1 && (!legal (w.fld 6 4) || decide (s.maxWidth < w.fld 6 4)) then 0x01
    else if (w.bit 0 || w.bit 1) && decide (s.acd.train ≠ 5) then 0x02
    else if w.bit 8 && decide (s.acd.pair ≠ .foreign) then 0x04
    else if w.bit 12 &&
        !(s.rank = 1 && (s.acd.pair = .foreign ||
          (s.acd.pair = .isolated && s.bit Pg.ACD Off.ACD_ACD_CFG 12))) then 0x03
    else if w.bit 16 && (s.acd.pair = .paired || s.acd.pair = .catchup) then 0x05
    else 0
  else 0

/-- The write needs TC0 with the secure attribute (R324, R353). -/
def acdNeedsSec (off : Nat) (w : Word) : Bool := off = Off.ACD_ACD_CMD && (w.bit 8 || w.bit 12 || w.bit 16)

/-- FORGET: the partner serial is cleared; without a partner the twin is ALONE, unless a FOREIGN one is on the link. -/
def forgetTwin (s : State) : State :=
  let s := onAcd s fun a => { a with partner := 0 }
  if s.acd.pair = .foreign && decide (4 ≤ s.acd.train) then s else setPair s .alone

/-- The effects of an admitted ACD_CMD write. -/
def acdCommand (w : Word) (s : State) : State :=
  let s := onlyIf (w.bit 0) (fun s => commandLink s .retrain) s
  let s := onlyIf (w.bit 1) (fun s => commandLink s (.width (w.fld 6 4))) s
  let s := onlyIf (w.bit 8) (fun s => onAcd s fun a => { a with adopt := some (w.bit 9) }) s
  let s := onlyIf (w.bit 12) (fun s => noteDegraded (onAcd s fun a => { a with takenOver := true })) s
  onlyIf (w.bit 16) forgetTwin s

def acdLinkStat (s : State) : Word :=
  let use := (List.range 4).foldl (fun n k => n + if (s.lane k).inUse && s.acd.train = 5 then 2 ^ k else 0) 0
  Word.place 2 0 s.acd.train ||| Word.place 6 4 (if s.acd.train ≤ 1 then 0 else s.acd.width) ||| Word.place 9 8 s.acd.rate ||| Word.place 15 12 use |||
    flagBit 16 s.acd.rankConflict ||| flagBit 17 s.acd.reqPending.isSome

def pairStat (s : State) : Word :=
  Word.place 2 0 (pairNum s.acd.pair) ||| Word.place 3 3 s.rank ||| flagBit 4 s.acd.takenOver |||
    flagBit 5 s.acd.ethPath ||| flagBit 6 s.acd.hbOk

/-- The largest lag of any ASYNC tenant, µs (LAG_US). -/
def lagUs (s : State) : Nat :=
  s.acd.backlog.foldl (fun m b => if s.mirrorPolicy b.tenant = 2 then max m ((s.ft.ns - b.commitNs) / 1000) else m) 0

/-- A map of tenants, 32 bits from tenant `base` (DIV_MAP, FULL_MAP). -/
def tenantMap (base : Nat) (p : Nat → Bool) : Word :=
  (List.range 32).foldl (fun (w : Word) k => w ||| flagBit k (p (base + k))) 0

/-- RO registers of the ACD page, by offset. -/
def acdShow (s : State) (off : Nat) : Word :=
  let div (n : Nat) := !(storeLook s.acd.div n []).isEmpty || s.acd.divFull.contains n
  if off = Off.ACD_LINK_STAT then acdLinkStat s
  else if off = Off.ACD_PAIR_STAT then pairStat s
  else if off = Off.ACD_PARTNER_SN_LO then lo32 s.acd.partner.toNat
  else if off = Off.ACD_PARTNER_SN_HI then hi32 s.acd.partner.toNat
  else if off = Off.ACD_EPOCH then lo32 s.acd.epoch
  else if off = Off.ACD_TWIN_EPOCH then lo32 s.acd.twinEpoch
  else if off = Off.ACD_CRED01 then Word.place 11 0 (s.vcCredits 0) ||| Word.place 23 16 (s.vcCredits 1)
  else if off = Off.ACD_CRED2 then Word.place 10 0 (s.vcCredits 2)
  else if off = Off.ACD_RETRY_STAT then Word.place 12 0 s.acd.retry.length
  else if off = Off.ACD_LAG_US then lo32 (min 0xFFFFFFFF (lagUs s))
  else if off = Off.ACD_BACKLOG then Word.place 20 0 s.acd.backlog.length
  else if off = Off.ACD_DIV_ENTRIES then lo32 (divCount s)
  else if off = Off.ACD_CATCHUP_LEFT then lo32 (catchupLeft s)
  else if off = Off.ACD_DIV_MAP0 then tenantMap 0 div
  else if off = Off.ACD_DIV_MAP1 then tenantMap 32 div
  else if off = Off.ACD_FULL_MAP0 then tenantMap 0 s.acd.divFull.contains
  else tenantMap 32 s.acd.divFull.contains

/-- RO registers of an ACL page. -/
def aclShow (s : State) (n off : Nat) : Word :=
  let l := s.lane n
  if off = Off.ACL_LANE_STAT then
    flagBit 0 l.locked ||| flagBit 1 l.aligned ||| flagBit 2 (l.inUse && s.acd.train = 5) ||| flagBit 3 l.eqDone |||
      Word.place 13 8 l.skew ||| Word.place 19 16 l.preset
  else Word.place 15 0 l.eyeH ||| Word.place 31 16 l.eyeV

/-- A lane in use that its ACL page's EN excludes leaves use through a retrain (Table 3.20). -/
def aclOff (s : State) (n : Nat) : State := onlyIf ((s.lane n).inUse && s.acd.train = 5) (fun s => requestLink s .retrain) s

/-- Core power went: what the journals keep of Accord (R322, R354) stays, everything else starts over. -/
def acdPowerOff (s : State) : State :=
  onAcd s fun a =>
    { partner := a.partner, epoch := a.epoch, div := a.div, divFull := a.divFull, toReceive := a.toReceive }

/-- The pair at BOOT (Table 12.9): JOINING with a partner serial, ALONE without. -/
def acdBoot (s : State) : State :=
  onAcd s fun a => { a with pair := if a.partner = 0 then .alone else .joining, joinTimer := decide (a.partner ≠ 0) }

/-! ## The commands -/

def execTs1 (t : Ts1) (s : State) : Host.Outcome State Fault Refusal := done (doTs1 t s)
def execTs2 (lane : Nat) (good : BitVec 4) (skew : Nat) (s : State) : Host.Outcome State Fault Refusal :=
  done (doTs2 lane good skew s)
def execHello (h : Hello) (s : State) : Host.Outcome State Fault Refusal := done (doHello h s)
def execWidth (width : Nat) (lanes : BitVec 4) (s : State) : Host.Outcome State Fault Refusal := done (doWidth width lanes s)
def execTrainLimit (s : State) : Host.Outcome State Fault Refusal := done (doTrainLimit s)
def execRateDwell (s : State) : Host.Outcome State Fault Refusal := done (doRateDwell s)
def execLinkFlit (f : LinkFlit) (s : State) : Host.Outcome State Fault Refusal := done (doLinkFlit f s)
def execLinkFlitSend (hb : Bool) (s : State) : Host.Outcome State Fault Refusal := done (doLinkFlitSend hb s)
def execReplayTimeout (s : State) : Host.Outcome State Fault Refusal := done (doReplayTimeout s)
def execLockLost (lane : Nat) (s : State) : Host.Outcome State Fault Refusal := done (doLockLost lane s)
def execAutoWiden (s : State) : Host.Outcome State Fault Refusal := done (doAutoWiden s)
def execHbMiss (s : State) : Host.Outcome State Fault Refusal := done (doHbMiss s)
def execRetrainGraceExpire (s : State) : Host.Outcome State Fault Refusal := done (doGraceExpire s)
def execMirror (tenant mseq : Nat) (m : MirrorOp) (s : State) : Host.Outcome State Fault Refusal :=
  done (doMirror tenant mseq m s)
def execMirrorAck (tenant mseq version : Nat) (s : State) : Host.Outcome State Fault Refusal :=
  done (doMirrorAck tenant mseq version s)
def execLeadMap (map : List Byte) (s : State) : Host.Outcome State Fault Refusal := done (doLeadMap map s)
def execNotice (kind epoch ns : Nat) (s : State) : Host.Outcome State Fault Refusal := done (doNotice kind epoch ns s)
def execIncident (tenant ns : Nat) (s : State) : Host.Outcome State Fault Refusal := done (doIncident tenant ns s)
def execPortMacs (macs : List (BitVec 48)) (links : BitVec 4) (s : State) : Host.Outcome State Fault Refusal :=
  done (doPortMacs macs links s)
def execRelay (c : Carriage) (part : List Byte) (s : State) : Host.Outcome State Fault Refusal := done (doRelay c part s)
def execKeyReq (q : KeyReq) (s : State) : Host.Outcome State Fault Refusal := done (doKeyReq q s)
def execKeyData (d : KeyData) (s : State) : Host.Outcome State Fault Refusal := done (doKeyData d s)
def execDivList (tenant : Nat) (full : Bool) (l : List DivItem) (s : State) : Host.Outcome State Fault Refusal :=
  done (doDivList tenant full l s)
def execDivEnd (tenant count : Nat) (s : State) : Host.Outcome State Fault Refusal := done (doDivEnd tenant count s)
def execTwinHeartbeatSend (s : State) : Host.Outcome State Fault Refusal := done (doTwinHeartbeatSend s)
def execTwinHeartbeat (b : EthBeat) (s : State) : Host.Outcome State Fault Refusal := done (doTwinHeartbeat b s)
def execEthPathDown (s : State) : Host.Outcome State Fault Refusal := done (doEthPathDown s)
def execJoinWaitExpire (s : State) : Host.Outcome State Fault Refusal := done (doJoinWaitExpire s)
def execLagHigh (tenant : Nat) (s : State) : Host.Outcome State Fault Refusal := done (doLagHigh tenant s)
def execCrcErr (s : State) : Host.Outcome State Fault Refusal := done (doCrcErr s)

end Sys2Proof.Machine
end

