-- ==== Sys2Proof/Machine/Mover.lean ====
section
/-! DEFINITION. Machine/Mover.lean: placing AON tags on Fleet Time (R42, R43), and what the core moves out of retained
AON SRAM: batches and interval records (R380 to R382), sillage records (R386), acquisition records (R441), and the replay
of parked incident firings (R387). -/

namespace Sys2Proof.Machine

/-! ## Alignment (R42) -/

/-- The AON tag of a pair: tick × 32 + phase. -/
def pairTag (p : CorrPair) : Nat := p.tick * 32 + p.phase

/-- An anchor by interpolation: the marks between two pairs, each rounded to the nearest whole second (R42). -/
def markAnchor (a b : CorrPair) (tag : Nat) : Nat × Int :=
  let est := (a.ns : Int) + ((tag : Int) - pairTag a) * ((b.ns : Int) - a.ns) / ((pairTag b : Int) - pairTag a)
  (tag, (est + 500000000) / 1000000000 * 1000000000)

/-- The pairs that bracket a tag: the last and the first around it with SEEDED 0; neither when one has state UNSET or
their STEP_COUNTs differ. -/
def bracket (s : State) (tag : Nat) : Option (CorrPair × CorrPair) :=
  let good := s.hub.pairs.filter fun p => !p.seeded
  match (good.filter fun p => pairTag p ≤ tag).getLast?, good.find? fun p => tag < pairTag p with
  | some a, some b =>
    if a.mode = .unset ∨ b.mode = .unset ∨ a.stepCount ≠ b.stepCount then none else some (a, b)
  | _, _ => none

/-- Place a tag between two pairs: the nearest anchors on either side, pairs or marks (R42). -/
def interpolate (s : State) (a b : CorrPair) (tag : Nat) : Int :=
  let marks := (s.hub.marks.filter fun m => pairTag a < m && m < pairTag b).map (markAnchor a b)
  let all := [(pairTag a, (a.ns : Int))] ++ marks ++ [(pairTag b, (b.ns : Int))]
  let lo := ((all.filter fun e => e.1 ≤ tag).getLast?).getD (pairTag a, a.ns)
  let hi := (all.find? fun e => tag < e.1).getD (pairTag b, b.ns)
  lo.2 + ((tag : Int) - lo.1) * (hi.2 - lo.2) / ((hi.1 : Int) - lo.1)

/-- A tag on Fleet Time, with the state and step count of the scale it is on. -/
def alignTag (s : State) (tag : Nat) : Option (Nat × Nat × Nat) :=
  (bracket s tag).map fun (a, b) => ((interpolate s a b tag).toNat, modeNum a.mode, a.stepCount)

/-- The nearest usable pair with 20 ns for each tick (R381). -/
def alignNearest (s : State) (tick : Nat) : Option (Nat × Nat × Nat) :=
  let good := s.hub.pairs.filter fun p => !p.seeded && p.mode ≠ .unset
  let dist (p : CorrPair) : Nat := ((p.tick : Int) - tick).natAbs
  let best := good.foldl (fun (b : Option CorrPair) p => match b with
    | none => some p
    | some q => if dist p < dist q then some p else b) none
  best.map fun p => (((p.ns : Int) + ((tick : Int) - p.tick) * 20).toNat, modeNum p.mode, p.stepCount)

/-! ## Commits of the core itself (R380) -/

/-- A decimal number of `n` digits, in ASCII. -/
def digits : Nat → Nat → List Byte
  | 0, _ => []
  | n + 1, v => digits n (v / 10) ++ [BitVec.ofNat 8 (48 + v % 10)]

/-- Fleet Time in a key: 15 digits of seconds, ".", 9 of nanoseconds. -/
def ftDigits (ns : Nat) : List Byte := digits 15 (ns / 1000000000) ++ [0x2E] ++ digits 9 (ns % 1000000000)

/-- PREFIX, its first PREFIX_LEN bytes. -/
def moverPrefix (s : State) : List Byte :=
  ((List.range 8).flatMap fun k => (s.reg Pg.BAT (Off.BAT_PREFIX k)).bytes).take (s.fld Pg.BAT Off.BAT_PREFIX_LEN 5 0)

/-- "/ivl/" and "/aqe/". -/
def ivlPart : List Byte := [0x2F, 0x69, 0x76, 0x6C, 0x2F]
def aqePart : List Byte := [0x2F, 0x61, 0x71, 0x65, 0x2F]

/-- PUT_IF_ABSENT of the core itself: its status. What a client's would meet of fences, holds, tags, quota and room
stops it too (R13, R380). -/
def internalPut (s : State) (n : Nat) (key value : List Byte) : Nat × State :=
  if writeFenced s n then (St.FENCED, s)
  else if pairHolds s n || !tagFree s n then (St.BUSY, s)
  else
    let (fits, t) := reserveFits s n (chargeOf value.length)
    if !fits then (St.QUOTA_FULL, t)
    else if (t.findKey n key).isSome then (St.EXISTS, t)
    else
      let u := bumpBy (commitPut t n key (.value value) s.ft.ns none).2 (Pg.TEN n) 0x050 value.length
      if budgetHolds s u then (St.OK, u) else (St.BUSY, s)

/-- OK and EXISTS count as moved. -/
def moved (status : Nat) : Bool := status = St.OK || status = St.EXISTS

/-- An SRAM read of a record: what it counts (R361). -/
def sramRead (r : SramRead) (s : State) : State :=
  match r with
  | .good => s
  | .corrected => bump s Pg.AON 0x058
  | .bad => setFlag (bump s Pg.AON 0x060) Pg.AON 6

/-- The mover's tenant, when it may be moved to: not 0 and ACTIVE. -/
def moverTenant (s : State) : Option Nat :=
  let n := s.fld Pg.BAT Off.BAT_BAT_CFG 5 0
  if n ≠ 0 && s.tenActive n then some n else none

/-! ## Batches and interval records (R378 to R382) -/

/-- The bytes of a batch (Table 13.9). -/
def batchBytes (m : Nat) (b : Batch) (ft : Nat × Nat × Nat) (unaligned : Bool) : List Byte :=
  let first := (b.entries.head?.map BatchEntry.tick).getD 0
  let last := (b.entries.getLast?.map BatchEntry.tick).getD 0
  let marks := b.entries.any BatchEntry.mark
  [1, BitVec.ofNat 8 m, BitVec.ofNat 8 (b2n b.ringLoss 1 + b2n unaligned 2 + b2n marks 4 + b2n b.cfgChanged 8),
    BitVec.ofNat 8 b.entries.length] ++ beBytes 8 first ++ beBytes 8 last ++ ftBytes ft.1 ft.2.1 ft.2.2 ++
    b.entries.flatMap fun e => beBytes 4 (b2n e.mark (2 ^ 31) + (e.tick - first) % 2 ^ 31) ++ e.value.bytes

/-- Where FIRST_TICK lies in Fleet Time: by bracketing pairs, else from the nearest pair with UNALIGNED; not yet while no
pair lies after it (R381). -/
def batchTime (s : State) (b : Batch) : Option ((Nat × Nat × Nat) × Bool) :=
  let tick := (b.entries.head?.map BatchEntry.tick).getD 0
  if !s.hub.pairs.any (fun p => tick < p.tick) then none
  else
    match alignTag s (tick * 32) with
    | some t => some (t, false)
    | none => (alignNearest s tick).map fun t => (t, true)

/-- Take a stream's oldest closed batch away. -/
def popBatch (s : State) (m : Nat) : State :=
  let b := s.batchesOf m
  hwmUpdate (setBatches s m { b with closed := b.closed.drop 1, retry := false }) m

/-- Move the oldest closed batch of stream `m`; nothing while it cannot be placed. -/
def moveBatch (s : State) (m n : Nat) (r : SramRead) : State :=
  match (s.batchesOf m).closed with
  | [] => s
  | b :: _ =>
    let s := sramRead r s
    if r = .bad then popBatch s m
    else
      match batchTime s b with
      | none => s
      | some (t, un) =>
        let key := moverPrefix s ++ [0x2F] ++ digits 2 m ++ [0x2F] ++ ftDigits t.1
        let (st, s) := internalPut s n key (batchBytes m b t un)
        if moved st then bump (popBatch s m) Pg.BAT 0x050
        else
          let c := s.batchesOf m
          setFlag (bump (setBatches s m { c with retry := true }) Pg.BAT 0x068) Pg.BAT 3

/-- The bytes of an interval record (Table 13.8). -/
def ivlBytes (r : IvlRec) : List Byte :=
  [1, BitVec.ofNat 8 r.groups.length, BitVec.ofNat 8 (b2n r.late 1 + b2n r.harvest 2), 0] ++ r.mask.bytes ++
    beBytes 8 r.tick ++ ftBytes r.ns r.mode r.step ++ r.occupancy.bytes ++
    r.groups.flatMap fun g => [BitVec.ofNat 8 g.1, 0, 0, 0] ++ g.2.1.bytes ++ g.2.2.bytes

/-- Move the oldest interval record; one whose tenant is not ACTIVE is lost (R380). -/
def moveIvl (s : State) (r : SramRead) : State :=
  match s.hub.intervals with
  | [] => s
  | v :: rest =>
    let pop (s : State) : State := onHub s fun h => { h with intervals := rest }
    let s := sramRead r s
    if r = .bad then pop s
    else if !s.tenActive v.tenant then bump (pop s) Pg.REC 0x060
    else
      let (st, s) := internalPut s v.tenant (moverPrefix s ++ ivlPart ++ ftDigits v.ns) (ivlBytes v)
      if moved st then bump (pop s) Pg.BAT 0x050
      else setFlag (bump (onHub s fun h => { h with intervals := { v with retry := true } :: rest }) Pg.BAT 0x068) Pg.BAT 3

/-- The streams in round-robin order from the mover's next. -/
def moverOrder (s : State) : List Nat := (List.range 64).map fun k => (s.hub.moverNext + k) % 64

/-- The mover runs: RUN, MOVE_EN, a tenant to move to, and Fleet Time not UNSET (R380, R381). -/
def moverOn (s : State) : Bool := s.inRun && s.bit Pg.BAT Off.BAT_BAT_CFG 8 && s.ft.mode ≠ .unset && s.en Pg.BAT

/-- One commit of the batch mover: the next stream with a batch it can place, else the oldest interval record. -/
def moveOne (s : State) (r : SramRead) : State :=
  match moverTenant s with
  | none => s
  | some n =>
    let can (m : Nat) : Bool :=
      let b := s.batchesOf m
      !b.retry && match b.closed with
        | [] => false
        | c :: _ => (batchTime s c).isSome
    match (moverOrder s).find? can with
    | some m => moveBatch (onHub s fun h => { h with moverNext := (m + 1) % 64 }) m n r
    | none => if (s.hub.intervals.head?.map IvlRec.retry) = some false then moveIvl s r else s

/-- BATCH_MOVE (R380). -/
def doBatchMove (r : SramRead) (s : State) : State := if moverOn s then moveOne s r else s

/-- What the mover still has: closed batches and interval records. -/
def moverLeft (s : State) : Nat :=
  sumBy (fun e => e.2.closed.length) s.hub.batches + s.hub.intervals.length

/-- Settle step 4: every closed batch and every queued interval record (R382). -/
def moveAll : Nat → State → State
  | 0, s => s
  | fuel + 1, s => if moverOn s then moveAll fuel (moveOne s .good) else s

/-- MOVE_RETRY: 100 ms have passed since a failed move; everything that waits may be tried again (R380, R441). -/
def doMoveRetry (s : State) : State :=
  let s := onHub s fun h =>
    { h with batches := h.batches.map (fun e => (e.1, { e.2 with retry := false }))
             intervals := h.intervals.map fun v => { v with retry := false }, sillRetry := false }
  onAqe s fun a => { a with held := a.held.map fun e => (e.1, { e.2 with retry := false }) }

/-- After a Harvest: what step 4 carried is moved only when the AON power-on reset has occurred since; else it is
discarded (R382). -/
def carriedBack (s : State) : State :=
  if s.hub.porSinceHarvest then
    let s := s.hub.carriedBatches.foldl (fun s e =>
      let b := s.batchesOf e.1
      setBatches s e.1 { b with closed := b.closed ++ [{ e.2 with carried := true }] }) s
    onHub s fun h =>
      { h with intervals := h.carriedIvls ++ h.intervals, sillage := h.carriedSill ++ h.sillage, carriedBatches := []
               carriedIvls := [], carriedSill := [], porSinceHarvest := false }
  else onHub s fun h => { h with carriedBatches := [], carriedIvls := [], carriedSill := [] }

/-! ## Sillage chunks (R386) -/

/-- A sillage record's 32 bytes (Table 13.10). -/
def sillBytes (r : SillRec) : List Byte :=
  [BitVec.ofNat 8 r.type, BitVec.ofNat 8 (b2n r.coarse 1 + b2n r.incPark 2 + b2n r.replayed 4)] ++ beBytes 2 r.seq ++
    beBytes 8 r.tick ++ [BitVec.ofNat 8 r.phase, 0, 0, 0] ++ (r.data ++ List.replicate 16 0).take 16

/-- A chunk of sillage records is due: 256 records, or 10 s since its first (R386). -/
def chunkDue (s : State) : Bool :=
  decide (256 ≤ s.hub.sillage.length) ||
    s.hub.sillage.head?.any fun r => decide (r.tick + 500000000 ≤ s.hub.tick)

/-- SILLAGE_MOVE: a chunk of up to 256 records goes to TC0 under its reserved key. -/
def doSillageMove (r : SramRead) (s : State) : State :=
  if !s.inRun || !chunkDue s || s.hub.sillRetry then s
  else
    let s := sramRead r s
    match s.hub.sillage with
    | [] => s
    | first :: rest =>
      if r = .bad then onHub s fun h => { h with sillage := rest }
      else
        let chunk := s.hub.sillage.take 256
        let key := [0xFF, 0x53, 0x4C, 0x47] ++ beBytes 4 s.hub.bootsAfterOff ++ beBytes 8 first.tick
        let (st, s) := internalPut s 0 key (chunk.flatMap sillBytes)
        if moved st then onHub s fun h => { h with sillage := h.sillage.drop chunk.length }
        else setFlag (bump (onHub s fun h => { h with sillRetry := true }) Pg.BAT 0x068) Pg.BAT 3

/-! ## Replay of parked incidents (R387) -/

/-- At the first RUN entry with Fleet Time not UNSET, every INC_PARK firing not yet replayed is delivered to the KVX with
its aligned time, or with the time of delivery. -/
def replayParked (s : State) : State :=
  if s.ft.mode = .unset then s
  else
    let due := s.hub.sillage.filter fun r => r.type = 2 && r.incPark && !r.replayed
    let s := due.foldl (fun s r =>
      incidentAt s (((alignTag s (r.tick * 32 + r.phase)).map Prod.fst).getD s.ft.ns)) s
    onHub s fun h =>
      { h with sillage := h.sillage.map fun r => if r.type = 2 ∧ r.incPark = true then { r with replayed := true } else r }

/-! ## Acquisition records (R441) -/

/-- A moved copy with one uncorrectable word: the word reads as 0 and FLAGS carries SRAM_UE (R439). -/
def spoilRecord (r : AqeRecord) (word : Nat) : List Byte :=
  let bs := recordBytes r
  let bs := if 4 * word + 4 ≤ bs.length then patchBytes bs (4 * word) (List.replicate 4 0) else bs
  patchBytes bs 2 (beBytes 2 (recordFlags r true))

/-- RECORD_MOVE: the HELD record of lowest RSEQ whose profile had MOVE = 1 and that waits for no retry. -/
def doRecordMove (r : SramRead) (word : Nat) (s : State) : State :=
  match moverTenant s with
  | none => s
  | some n =>
    if !s.inRun || !s.bit Pg.AQE Off.AQE_AQE_CFG 8 || !s.en Pg.AQE then s
    else
      let cand := s.aqe.held.filter fun e => e.2.move && !e.2.retry
      let best := cand.foldl (fun (b : Option (Nat × AqeRecord)) e => match b with
        | none => some e
        | some x => if e.2.rseq < x.2.rseq then some e else b) none
      match best with
      | none => s
      | some (seg, rec) =>
        let s := sramRead r s
        let value := if r = .bad then spoilRecord rec word else recordBytes rec
        let key := moverPrefix s ++ aqePart ++ digits 10 s.hub.bootsAfterOff ++ [0x2F] ++ digits 20 (rec.trigTime / 32)
        let (st, s) := internalPut s n key value
        if moved st then bump (onAqe s fun a => { a with held := storeErase a.held seg }) Pg.AQE 0x070
        else
          setFlag (bump (onAqe s fun a => { a with held := storeInsert a.held seg { rec with retry := true } }) Pg.AQE 0x080)
            Pg.AQE 4

/-! ## The commands -/

def execBatchMove (r : SramRead) (s : State) : Host.Outcome State Fault Refusal := done (doBatchMove r s)
def execMoveRetry (s : State) : Host.Outcome State Fault Refusal := done (doMoveRetry s)
def execSillageMove (r : SramRead) (s : State) : Host.Outcome State Fault Refusal := done (doSillageMove r s)
def execRecordMove (r : SramRead) (word : Nat) (s : State) : Host.Outcome State Fault Refusal := done (doRecordMove r word s)

end Sys2Proof.Machine
end

