-- ==== Sys2Proof/Machine/Power.lean ====
section
/-! DEFINITION. Machine/Power.lean: what each reset kind keeps, the core power handshake, boot, the settle, the Harvest
and recovery (chapters 01, 04 and 11), with USB_UP's attach and detach as they need it (R116, R464). -/

namespace Sys2Proof.Machine

/-! ## What registers keep (R99, Table 4.3) -/

/-- The bits of an address kept in the AON island through a core power-up: AON pages, the kept PWR fields (R118), PARK_DIV,
the kept USB and mailbox registers (R492 to R494), and the AON channels of the event fabric (R459). -/
def islandMask (s : State) (a : Nat) : Word :=
  let page := pageOf a
  let off := offOf a
  let all : Word := 0xFFFFFFFF
  if aonPage page then all
  else if page = Pg.PWR then
    if off = 0x108 ∨ off = 0x10C ∨ off = 0x114 ∨ off = 0x118 then all else if off = 0x110 then 0x3F00 else 0
  else if page = Pg.TIME ∧ off = 0x180 then 0xFFF
  else if (page = Pg.USBH ∨ page = Pg.LMF ∨ page = Pg.HKP) ∧ off = 0x100 then all
  else if page = Pg.EVF then
    if off = Off.PAGE_CTRL then 1
    else if 0x400 ≤ off ∧ off < 0xA00 then (if s.chAon ((off - 0x400) / 32) then all else 0) else 0
  else 0

/-- The bits of an address kept in the journal, through every reset: the RW fields of HRV (R321), the durable fields of
the tenant pages (R212), and POOL_BASE (R54). -/
def journalMask (a : Nat) : Word :=
  let page := pageOf a
  let off := offOf a
  if page = Pg.HRV ∧ 0x100 ≤ off ∧ off < 0x120 then 0xFFFFFFFF
  else if 0x040 ≤ page ∧ page < 0x080 then
    if (0x100 ≤ off ∧ off < 0x118) ∨ (0x130 ≤ off ∧ off < 0x13C) ∨ (0x300 ≤ off ∧ off < 0x310) then 0xFFFFFFFF
    else if off = Off.PAGE_OWNER then 0x13F else 0
  else if page = Pg.TAT ∧ off = Off.TAT_TAT_CFG then 0xFF00
  else 0

/-- A warm reset also keeps FT_ADDEND (R102), and clears LOCK on the AON pages (R66). -/
def warmMask (s : State) (a : Nat) : Word :=
  if aonPage (pageOf a) ∧ offOf a = Off.PAGE_OWNER then 0xFFFF7FFF
  else if pageOf a = Pg.TIME ∧ offOf a = Off.TIME_FT_ADDEND then 0xFFFFFFFF
  else islandMask s a

/-- Every register returns to its reset value but for the bits of `mask`. -/
def keepRegs (mask : Nat → Word) (s : State) : State :=
  { s with regs := s.regs.foldl (fun m e =>
      let d := regReset e.1
      storePut m e.1 d ((storeLook s.regs e.1 d &&& mask e.1) ||| (d &&& ~~~ mask e.1))) [] }

/-- The counters kept while the island is powered: those of AON pages, of the HRV page (R321) and of the EVF page (R458). -/
def keepCtrs (keep : Nat → Bool) (s : State) : State := { s with ctrs := s.ctrs.filter fun e => keep (pageOf e.1) }

/-- Interrupt delivery of CORE pages ends with the core: their flags, hold-offs and pins (R84). -/
def dropCoreIrq (s : State) : State :=
  { s with
    holdoffs := s.holdoffs.filter (fun e => aonPage (e.1 / 4)), levels := s.levels.filter (fun e => aonPage e.1)
    irq0 := pinHolders s 1 s.irq0 (s.irq0.filter aonPage), irq1 := pinHolders s 2 s.irq1 (s.irq1.filter aonPage)
    inReset := s.inReset.filter aonPage, shadows := [] }

/-! ## USB_UP (R116, R464, R482, R487, R491) -/

/-- What the hub and the LMF keep while USB_UP is detached: VBUS, the overcurrent inputs, the stored image copies, and the
frames already in the bulk buffer. -/
def usbUnplugged (u : UsbState) : UsbState :=
  { u with
    up := .detached, suspended := false, highSpeed := false, lmfAddr := 0, rwakeHub := false, rwakeLmf := false
    rwakeReq := false, frame := 0, sofCycles := 0, sofRuns := false, ttNp := 0, ttPeriodic := 0
    lmfPower := false, haltOut := false, haltIn := false, haltEp2 := false, haltCause := 0, toggles := [], ackOwed := false
    inQueue := [], ep2 := [], mailbox := none, image := none, ep0 := none, parkAttached := false
    ports := u.ports.map fun e => (e.1, ({ ocN := e.2.ocN } : DnPort)) }

/-- LH-96 detaches USB_UP: the session closes and the mailbox is freed. -/
def usbDetach (s : State) : State :=
  let was := s.usb.up ≠ .detached
  let s := closeSession (onUsb s usbUnplugged)
  if was ∧ s.coreOn = true then setFlag s Pg.USBH 1 else s

/-- LH-96 attaches USB_UP while VBUS is valid and the hub has started; E, the IN sequence and NSEQ return to 0. -/
def usbAttach (s : State) : State :=
  if s.usb.vbus && s.usb.hubStarted && s.en Pg.USBH && s.usb.up = .detached then
    setFlag (onUsb s fun u => { u with up := .attached, outExp := 0, inNext := 0, lastTaken := 0xFFFF, nseq := 0 })
      Pg.USBH 0
  else s

/-- The hub starts, at entry to BOOT_STAGE DRAM or USB_WAIT, whichever comes first (R464). -/
def hubStart (s : State) : State :=
  if s.usb.hubStarted then s
  else usbAttach (onUsb s fun u => { u with hubStarted := true, ports := u.ports.map fun e => (e.1, { ocN := e.2.ocN }) })

/-! ## The core's own state at a core reset (Table 4.3) -/

/-- A tenant's contexts that are in flash or in the journal; the rest starts afresh. -/
def tenantKept (t : Tenant) : Tenant :=
  { verCtr := t.verCtr, keys := t.keys, aesKcv := t.aesKcv, keyHold := t.keyHold, rotPtr := t.rotPtr
    openSheaf := t.openSheaf, packGrain := t.packGrain }

/-- A LUN keeps its blocks; what was under way on it ends, and its erase intents stay open (R312). -/
def lunKept (l : Lun) : Lun :=
  { l with move := none, moveQueue := [], refreshQ := [], heldErase := [], drr := {}, timeouts := 0, failRun := [] }

/-- The store's volatile state ends; keys, values, swaps and cursors stay. -/
def storeKept (s : State) : State :=
  { s with
    fratra := { tenants := s.fratra.tenants.map (fun e => (e.1, tenantKept e.2)), swaps := s.fratra.swaps
                nextSwap := s.fratra.nextSwap, timed := s.fratra.timed, cursors := s.fratra.cursors
                incident := { events := s.fratra.incident.events } }
    ftl := { s.ftl with
      progs := [], nextProg := 0, chans := [], dram := {}
      luns := s.ftl.luns.map (fun e => (e.1, lunKept e.2))
      sheaves := s.ftl.sheaves.map (fun e => (e.1, { e.2 with folding := none, since := [] }))
      health := { s.ftl.health with asked := [], waitingTwin := false } } }

/-- The Timed Action Table keeps its persistent entries alone (R54). -/
def tatKept (t : TatState) : TatState :=
  { entries := t.entries.filter (fun e => e.2.persist), closes := t.closes, eventLog := t.eventLog }

/-- The SEC block keeps its key slots, the island's failure count and lockout, and its fuses. -/
def secKept (x : SecState) : SecState :=
  { slots := x.slots, rngFault := x.rngFault, failures := x.failures, lockout := x.lockout, revoked := x.revoked
    bootKeys := x.bootKeys }

/-- The TIME page's own state returns to reset; the counter is handled by R31 and R102. DESIGN CHOICE (log 110): the pair
number SEQ is then 0. -/
def ftPageReset (f : FtState) : FtState :=
  { f with ring := [], ringNext := 0, ringWrapped := false, pairSeq := 0, cap := 0, goodRun := 0, outHigh := false
           lockRun := 0, syncHeld := none }

/-- Everything in the core returns to reset but what Table 4.3 keeps. `mask` says which register bits stay. -/
def coreClear (mask : Nat → Word) (s : State) : State :=
  let s := evfPowerOff s
  let s := acdPowerOff (storeKept s)
  let s := dropCoreIrq (keepCtrs (fun p => aonPage p || p = Pg.HRV || p = Pg.EVF) (keepRegs mask s))
  let s := onTat (onFt (onSec s secKept) ftPageReset) tatKept
  let s := onClk s fun c => { c with freeNs := 0 }
  onPwr { s with ports := [], snap := { s.snap with saving := none, restored := false } }
    fun p => { p with image := false, tried := 0, usbWait := false, discovered := false, watchdog := false
                      wdtFrom := 0, settle := none }

/-- The registers that a core power-up keeps. -/
def parkMask (s : State) (a : Nat) : Word := islandMask s a ||| journalMask a

/-- WAKE_HOST was asserted for USB_WAIT, and that wait ends (R109). -/
def endUsbWait (s : State) : State :=
  if s.pwr.usbWait then onPwr (onHub s fun h => { h with wakeHost := false }) fun p => { p with usbWait := false } else s

/-- Core power goes off: CORE_PWR_EN deasserted, and everything in the core lost but what Table 4.3 keeps. -/
def coreOff (s : State) : State :=
  let s := endUsbWait (keyPowerLoss s)
  let attached := s.usb.parkAttached
  let s := if attached then closeSession s else usbDetach s
  let s := coreClear (parkMask s) s
  let s := onUsb s fun u =>
    let v : UsbState := { vbus := u.vbus, copies := u.copies, parkPermission := u.parkPermission
                          ports := u.ports.map (fun e => (e.1, { ocN := e.2.ocN })) }
    if attached then { v with up := u.up, suspended := true, parkAttached := true } else v
  onPwr (onClk s fun c => { c with coreLock := false }) fun p => { p with corePwrEn := false, wait := .none }

/-- PARK is entered: the count of good TSYNC edges restarts (R42). -/
def enterPark (s : State) : State := onFt (onPwr s fun p => { p with state := .park }) fun f => { f with parkGood := 0 }

/-! ## The AON power-on reset (R94, R95, Table 4.3) -/

/-- The AON power-on reset takes effect: the island's contents are lost, the machine is in OFF. -/
def applyPor (byPin : Bool) (s : State) : State :=
  let s := if s.coreOn then coreOff s else s
  let s := keepCtrs (fun p => p = Pg.HRV) (keepRegs journalMask s)
  let s := { s with
    holdoffs := [], levels := [], irq0 := [], irq1 := [], inReset := [], shadows := [], evf := {}, bus := {}, aqe := {}
    hub := { bootsAfterOff := s.hub.bootsAfterOff, carriedBatches := s.hub.carriedBatches
             carriedIvls := s.hub.carriedIvls, carriedSill := s.hub.carriedSill, porSinceHarvest := true } }
  let s := onSec s fun x => { x with failures := 0, lockout := false }
  let s := onClk s fun c => { refPresent := c.refPresent }
  let s := onFt s fun _ => {}
  let s := onUsb s fun u => { vbus := u.vbus, copies := u.copies, ports := u.ports.map fun e => (e.1, { ocN := e.2.ocN }) }
  onPwr s fun p =>
    { state := .off, porHeld := true, porByPin := byPin, straps := p.straps, pgood := p.pgood, resetN := p.resetN
      lastDown := p.lastDown }

/-- A power-fail trip in BOOT: no Harvest; the core goes off and LH-96 is in PARK (Table 1.8). -/
def bootTrip (s : State) : State :=
  onPwr (enterPark (coreOff s)) fun p => { p with cause := 0x40, bootWake := 0, attempts := 0, wakeLatch := 0 }

/-! ## Boot -/

/-- BOOT_STAGE STAGE takes a code (Table 4.13). -/
def setStage (s : State) (n : Nat) : State := setFldOf s Pg.RST Off.RST_BOOT_STAGE 3 0 n

/-- The code of LAST_DOWN. -/
def lastDownNum : LastDown → Nat
  | .settle => 1
  | .harvest => 2
  | _ => 0

/-- RST_CAUSE of a BOOT (R119), from the causes and the wake sources that led to it. It is written once, as the core reset
is released: no path reads the page before (R64). -/
def writeCause (s : State) : State :=
  let wake := s.pwr.bootWake
  let w : Word := s.pwr.cause.setWidth 32 ||| flagBit 2 (decide (wake ≠ 0)) |||
    Word.place 9 8 (lastDownNum s.pwr.lastDown) ||| Word.place 20 16 wake.toNat
  onPwr (setReg s Pg.RST Off.RST_RST_CAUSE w) fun p => { p with cause := 0, bootWake := 0 }

/-- BOOT begins: what is common to every BOOT. -/
def bootCommon (s : State) : State :=
  let s := setStage s 0
  let s := onPwr s fun p =>
    { p with state := .boot, needRecovery := p.needRecovery || p.lastDown = .harvest || p.lastDown = .unclean }
  let s := acdBoot { s with fratra := { s.fratra with coreUs := 0, coreSub := 0 } }
  if s.clk.refPresent then s else setFlag (bump s Pg.CLK 0x050) Pg.CLK 2

/-- Fleet Time at the start of a BOOT from PARK (R31), and after OFF. -/
def seedTime (s : State) : State :=
  match s.ft.journal with
  | some j =>
    let m : FtMode := if j.mode = .unset then .unset else .free
    let s := onFt s fun f =>
      { f with ns := (j.ns + (s.hub.tick - j.tick) * 20) % ftRange, sub := j.sub, mode := m, seeded := true
               stepCount := j.stepCount }
    if m = j.mode then s else setFlag s Pg.TIME 0
  | none =>
    onHub (onFt s fun f => { f with ns := 0, sub := 0, mode := .unset, seeded := false, stepCount := 0 })
      fun h => { h with bootsAfterOff := h.bootsAfterOff + 1 }

/-- BOOT with core power coming on (R96): SYS_PWRDN is released, the wakes that led here go to RST_CAUSE, Fleet Time is
seeded and its WAKE pair captured. -/
def bootStart (s : State) : State :=
  let wake := if s.pwr.state = .park then s.pwr.wakeLatch else 0
  let s := if s.usb.parkAttached then usbDetach s else s
  let s := bootCommon (onPwr s fun p => { p with wakeLatch := 0, bootWake := wake })
  captureNow (seedTime s) 1

/-- A power-up is due: after the AON power-on reset, after a failed attempt, or on a wake from PARK. -/
def powerDue (s : State) : Bool :=
  !s.pwr.porHeld && !s.pwr.corePwrEn &&
    (s.pwr.wait = .offMin || (s.pwr.state = .park && s.pwr.wakeLatch ≠ 0 && s.pwr.wait = .none))

/-- POWER_UP (R96). -/
def doPowerUp (s : State) : State :=
  if powerDue s && !s.pwr.pgood then
    let s := if s.pwr.state = .boot then s else bootStart s
    onPwr s fun p => { p with corePwrEn := true, sysPwrdn := false, wait := .pgood }
  else s

/-- An attempt has failed: another follows after RETRY_MS, or the retries are exhausted and LH-96 is in PARK with
HOLD_FAULT, a sillage record and WAKE_HOST (R96). DESIGN CHOICE (log 113): exhausted retries are treated as a trip in BOOT in
what becomes of the core, but TRIP_CNT does not count them, and the one sillage record is that of HOLD_FAULT. -/
def failAttempt (s : State) : State :=
  let n := s.pwr.attempts + 1
  if n ≤ s.fld Pg.PWR Off.PWR_PWR_SEQ 18 16 then
    onPwr s fun p => { p with corePwrEn := false, attempts := n, wait := .retry }
  else
    let s := sillAdd (setBitOf (bootTrip s) Pg.PWR Off.PWR_PWR_STAT 13 true) 6 [3]
    onHub s fun h => { h with wakeHost := true }

/-- PGOOD_CORE is seen high; while it is awaited, the handshake has succeeded (R96, Table 4.10). -/
def doPgoodRise (s : State) : State :=
  let s := onPwr s fun p => { p with pgood := true }
  if s.pwr.wait = .pgood then
    let n := s.pwr.attempts
    let s := setBitOf (setFldOf s Pg.PWR Off.PWR_PWR_STAT 11 8 n) Pg.PWR Off.PWR_PWR_STAT 13 false
    let s := onPwr s fun p => { p with attempts := 0, wait := .pll }
    if n = 0 then s else setFlag s Pg.PWR 1
  else s

/-- PGOOD_TIMEOUT: PGOOD_TMO_MS has passed without PGOOD_CORE. -/
def doPgoodTimeout (s : State) : State := if s.pwr.wait = .pgood then failAttempt s else s

/-- RETRY_WAIT_END. -/
def doRetryEnd (s : State) : State :=
  if s.pwr.wait = .retry then onPwr s fun p => { p with wait := .offMin } else s

/-- PGOOD_STUCK: 100 ms high with CORE_PWR_EN deasserted sets PGOOD_STUCK_SEEN; where a power-up is due, the attempt has
failed (R97). During the RETRY_MS wait and in PARK with no wake there is no attempt to fail (DEDUCED,
log 140). -/
def doPgoodStuck (s : State) : State :=
  if s.pwr.porHeld || s.pwr.corePwrEn || !s.pwr.pgood then s
  else
    let t := setBitOf s Pg.PWR Off.PWR_PWR_STAT 12 true
    if powerDue s then failAttempt t else t

/-- The ROM has reached USB (R109). -/
def enterUsbWait (s : State) : State :=
  let s := setStage (hubStart s) 3
  onHub (onPwr s fun p => { p with usbWait := true }) fun h => { h with wakeHost := true }

/-- The image copies that BOOT_SRC selects, in order: (source 0 QSPI or 1 NAND, copy) (R108). -/
def imageCopies (s : State) : List (Nat × Nat) :=
  match s.pwr.straps.toNat / 2 % 4 with
  | 0 => [(0, 0), (0, 1)]
  | 1 => [(1, 0), (1, 1)]
  | 2 => []
  | _ => [(0, 0), (0, 1), (1, 0), (1, 1)]

/-- The core reset is released: RST_CAUSE is written and the boot ROM starts. -/
def startRom (s : State) : State :=
  let s := onPwr (writeCause s) fun p =>
    { p with wait := .none, tried := 0, image := false, usbWait := false, discovered := false }
  if (imageCopies s).isEmpty then enterUsbWait s else setStage s 1

/-- CORE_RESET_RELEASE: the core PLL has locked, or starts free without REFCLK (R25, R96); with RESET_N asserted the core
stays in reset (R100). -/
def doCoreRelease (s : State) : State :=
  if s.pwr.wait = .pll then
    let s := onClk s fun c => { c with coreLock := c.refPresent }
    if s.pwr.resetN then onPwr s fun p => { p with wait := .hold } else startRom s
  else s

/-- The LUN of a NAND image copy names the copy in its LUN record (R242); before the first format the flash is as it was
delivered. -/
def copyNamed (s : State) (copy : Nat) : Bool :=
  !s.ftl.formatted || (((s.lun (32 * copy)).record.map fun r => r.image.isSome).getD false)

/-- What the ROM reads of a local copy: the image stored there by IMG_END where one has been, otherwise what the flash held
before; nothing of a NAND copy that no LUN record names (R108, R242). -/
def copyRead (s : State) (source copy : Nat) (i : ImageRead) : ImageRead :=
  { i with bytes := if source = 1 && !copyNamed s copy then [] else storeLook s.usb.copies (1 + 2 * source + copy) i.bytes }

/-- An accepted image starts: SEC reports it, the watchdog is armed, WAKE_HOST ends, BOOT goes on to DRAM (R107, R109,
R117). `tried` counts the images tried before it. DESIGN CHOICE (log 114): an image delivered over USB after one that failed
is another copy than the first one tried, and sets BOOT_FALLBACK. -/
def acceptImage (s : State) (source copy tried : Nat) (i : ImageRead) : State :=
  let st : Word := flagBit 0 true ||| Word.place 2 1 source ||| Word.place 5 4 (imgKeyIdx i)
  let s := setReg (setReg s Pg.SEC Off.SEC_SEC_STAT st) Pg.SEC Off.SEC_BOOT_VER (Word.place 15 0 (imgVersion i))
  let s := setReg s Pg.RST Off.RST_IMAGE_INFO (Word.place 0 0 copy ||| Word.place 15 8 (tried + 1))
  let s := endUsbWait s
  let s := onPwr s fun p =>
    { p with image := true, tried := tried + 1, watchdog := s.bit Pg.RST Off.RST_WDT_CFG 16
             wdtFrom := s.fratra.coreUs }
  let s := if 0 < tried then setFlag s Pg.RST 1 else s
  hubStart (setStage s 4)

/-- A failed image: FAIL takes the code, and the images tried are counted. -/
def refuseImage (s : State) (tried code : Nat) : State :=
  let s := setFldOf s Pg.RST Off.RST_BOOT_STAGE 15 8 code
  let s := setFldOf s Pg.RST Off.RST_IMAGE_INFO 15 8 (tried + 1)
  onPwr s fun p => { p with tried := tried + 1 }

/-- The boot ROM is at work: BOOT, out of reset, no image accepted yet. -/
def romRuns (s : State) : Bool := s.pwr.state = .boot && s.pwr.wait = .none && !s.pwr.image

/-- IMAGE_VERIFY: the ROM has read the next local copy (R107, R108). -/
def doImageVerify (i : ImageRead) (s : State) : State :=
  if !romRuns s || s.pwr.usbWait then s
  else
    match (imageCopies s)[s.pwr.tried]? with
    | none => s
    | some (source, copy) =>
      let i := copyRead s source copy i
      let code := imageFault s i
      let n := s.pwr.tried
      if code = 0 then acceptImage s source copy n i
      else
        let s := refuseImage s n code
        if n + 1 < (imageCopies s).length then setStage s 1 else enterUsbWait s

/-- POPULATION_DISCOVERY: stages DRAM and NAND (R237); the persistent entries are loaded with a settle-class MAP stage. -/
def doDiscovery (pop : Population) (s : State) : State :=
  if s.pwr.state = .boot ∧ s.pwr.image = true ∧ s.pwr.discovered = false then
    let s := setStage (doPopulation pop s) 6
    let s := onPwr s fun p => { p with discovered := true }
    if s.pwr.needRecovery then s else setStage (onTat s fun t => { t with loaded := true }) 7
  else s

/-! ## The settle (R112 to R116) -/

/-- Erases in progress complete (Table 4.9 step 3). -/
def finishErases (s : State) : State :=
  s.ftl.luns.foldl (fun s l => l.2.erasing.foldl (fun s b => eraseEnds s l.1 b.1 b.2) s) s

/-- A settle starts: no request is accepted from now on. -/
def startSettle (warm : Bool) (s : State) : State :=
  onPwr { s with fratra := { s.fratra with hold := true } } fun p =>
    { p with settle := some { warm := warm, startTick := s.hub.tick } }

/-- A change of the settle that runs. -/
def onSettle (s : State) (f : Settle → Settle) : State := onPwr s fun p => { p with settle := p.settle.map f }

/-- Steps 2 and 3: the operations still in flight at the drain limit are answered ABORTED, and the twin is told. -/
def endDrain (t : Settle) (s : State) : State :=
  let n := (s.fratra.ops.filter fun e => match e.2.phase with | .waitTwin _ => false | _ => true).length
  let s := abortOps (fun _ => true) (bumpBy s Pg.PWR 0x048 n)
  let s := finishErases (onPwr s fun p => { p with settle := some { t with drained := true } })
  tellNotice s (if t.warm then 3 else 1)

/-- SETTLE_DRAIN_LIMIT. -/
def doDrainLimit (s : State) : State :=
  match s.pwr.settle with
  | some t => if t.drained then s else endDrain t s
  | none => s

/-- The final Fleet Time and the PARK pair go to the journal, and TSYNC_WINDOW into the island (R31, R42). -/
def journalTime (s : State) : State :=
  let s := captureNow s 3
  onFt s fun f =>
    { f with journal := some { ns := f.ns, sub := f.sub, tick := s.hub.tick, mode := f.mode, stepCount := f.stepCount }
             parkWindow := s.fld Pg.TIME Off.TIME_TSYNC_CFG 15 4 }

/-- Step 4: every dirty buffer is written to its ordinary location and the mover's batches with it: the dirty bytes written,
and the machine. -/
def settleWrite (s : State) : Nat × State :=
  let a := flushAll 4 s
  let b := moveAll (moverLeft s) a
  let c := flushAll 4 b
  (dirtyBytes s - dirtyBytes a + (dirtyBytes b - dirtyBytes c), c)

/-- The duration of a settle in µs, from the AON ticks of 20 ns since step 1. -/
def settleUs (t : Settle) (s : State) : Nat := (s.hub.tick - t.startTick) / 50

/-- Steps 4 to 6: everything is written back and moved, the PARK pair and the final Fleet Time journaled. -/
def settleWork (t : Settle) (s : State) : State :=
  let s := if t.drained then s else endDrain t s
  let (written, s) := settleWrite s
  let s := journalCheckpoint (journalTime (backlogToDiv s)) .shutdown
  let s := setReg s Pg.PWR Off.PWR_LAST_SETTLE_US (BitVec.ofNat 32 (min 0xFFFFFFFF (settleUs t s)))
  let s := setReg s Pg.PWR Off.PWR_SETTLE_DIRTY (BitVec.ofNat 32 (min 0xFFFFFFFF (written / 1024)))
  let s := onUsb s fun u => { u with parkPermission := u.rwakeHub && u.rwakeLmf }
  onPwr s fun p => { p with lastDown := .settle, trainingKept := true }

/-- The core reset of a warm reset: everything in the core returns to reset but what Table 4.3 keeps, core power on. -/
def warmHold (s : State) : State :=
  let s := usbDetach (endUsbWait (keyFinish s))
  let s := coreClear (fun a => warmMask s a ||| journalMask a) s
  let s := onUsb s fun u => { u with hubStarted := false, bulk := [] }
  onPwr s fun p => { p with state := .boot, wait := .hold }

/-- A settle that a wake source ended returns to RUN (R115). -/
def settleBack (slow : Bool) (s : State) : State :=
  let s := { s with fratra := { s.fratra with hold := false } }
  let s := onTat (onPwr s fun p => { p with settle := none }) fun t => { t with passDue := true }
  setFlags s Pg.PWR (if slow then 5 else 1)

/-- SETTLE_COMPLETE: step 7 of a park or warm settle, or back to RUN. -/
def doSettleComplete (slow : Bool) (s : State) : State :=
  match s.pwr.settle with
  | none => s
  | some t =>
    if !t.drained && !s.fratra.ops.isEmpty then s
    else
      let s := settleWork t s
      if t.warm then warmHold (onPwr s fun p => { p with slowOwed := p.slowOwed || slow })
      else if t.woken then settleBack slow s
      else
        let s := onPwr s fun p => { p with slowOwed := p.slowOwed || slow }
        let s := onUsb s fun u => { u with parkAttached := u.up ≠ .detached && u.suspended }
        sillAdd (enterPark (coreOff s)) 6 [1]

/-! ## Warm reset (R100) -/

/-- A warm-reset cause (its RST_CAUSE bit) as the power state takes it. In BOOT before the core reset's release there is
nothing to restart: the cause waits for RST_CAUSE (R119). -/
def warmCause (bit : BitVec 7) (s : State) : State :=
  match s.pwr.state with
  | .run =>
    match s.pwr.settle with
    | none => startSettle true (onPwr s fun p => { p with cause := p.cause ||| bit })
    | some t =>
      if t.warm then s else onPwr s fun p => { p with cause := p.cause ||| bit, settle := some { t with warm := true } }
  | .boot =>
    let s := onPwr s fun p => { p with cause := p.cause ||| bit ||| 0x40 }
    if s.pwr.wait = .none then warmHold s else s
  | _ => s

/-- RESET_N_ASSERT. -/
def doResetAssert (s : State) : State :=
  let was := s.pwr.resetN
  let s := onPwr s fun p => { p with resetN := true }
  if was then s
  else if s.pwr.state = .park then
    sillAdd (keepRegs (fun a => if aonPage (pageOf a) ∧ offOf a = Off.PAGE_OWNER then 0xFFFF7FFF else 0xFFFFFFFF) s) 6 [4]
  else warmCause 0x08 s

/-- The straps sampled at every warm reset: TWIN_RANK and BOOT_SRC (R103). -/
def sampleWarm (s : State) (straps : BitVec 5) : State :=
  onPwr s fun p => { p with straps := (p.straps &&& 0x18) ||| (straps &&& 0x07) }

/-- A warm reset is among the causes that RST_CAUSE is to show. -/
def warmPending (s : State) : Bool := s.pwr.cause &&& 0x38 ≠ 0

/-- The core reset is released: a warm reset begins BOOT at the boot ROM; a core power-up held by RESET_N goes on. -/
def releaseHold (straps : BitVec 5) (s : State) : State :=
  if s.pwr.wait = .hold ∧ s.pwr.resetN = false then
    startRom (if warmPending s then bootCommon (sampleWarm s straps) else s)
  else s

/-- RESET_N_RELEASE. -/
def doResetRelease (straps : BitVec 5) (s : State) : State :=
  releaseHold straps (onPwr s fun p => { p with resetN := false })

/-- WDT_KICK on the HKP path restarts the watchdog from zero; from other paths it is ignored (R117). -/
def wdtKick (p : Path) (s : State) : State :=
  if p = .hkp then onPwr s fun x => { x with wdtFrom := s.fratra.coreUs } else s

/-- WDT_WARN and WDT_EXPIRE (R117). -/
def doWdtWarn (s : State) : State := if s.pwr.watchdog then setFlag s Pg.RST 0 else s
def doWdtExpire (s : State) : State := if s.pwr.watchdog then warmCause 0x20 s else s

/-! ## Power-fail trip and Harvest (R298 to R305) -/

/-- A port at the freeze: a frame past stage 1 takes RX_FREEZE_DROP, complete frames are discarded, and only the frame in
transmission is finished (R147, R301). -/
def freezePort (s : State) (k : Nat) : State :=
  let s := if (s.port k).rx.isSome then bump s (Pg.MAC k) 0x0B8 else s
  onPort s k fun p => { p with rx := none, queues := [], tx := [], due := 0 }

/-- Step 1: the freeze of R301. -/
def freeze (s : State) : State :=
  let s := (List.range 4).foldl freezePort s
  let s := { s with
    fratra := { s.fratra with hold := true, ops := [] }
    snap := { s.snap with saving := none }
    ftl := { s.ftl with
      progs := [], luns := s.ftl.luns.map (fun e => (e.1, lunKept e.2))
      sheaves := s.ftl.sheaves.map fun e => (e.1, { e.2 with folding := none }) } }
  let s := onUsb s fun u => { u with bulk := [], inQueue := [], ackOwed := false }
  tellNotice (onTat s fun t => { t with passDue := true }) 2

/-- A trip in RUN or during a settle starts the Harvest. -/
def startHarvest (s : State) : State :=
  let d := dirtyBytes s
  let s := freeze (bump s Pg.HRV 0x040)
  let s := onHrv s fun h =>
    { h with hseq := (h.hseq + 1) % 2 ^ 32
             run := some { startNs := s.ft.ns, dirty := d, segments := d / 4096, vTrip := h.vNow } }
  onPwr s fun p => { p with state := .harvest, settle := none, wait := .none, cause := 0 }

/-- A power-fail trip, as the power state takes it (Table 1.3, Table 1.8, R98). -/
def trip (s : State) : State :=
  match s.pwr.state with
  | .run => startHarvest s
  | .boot => sillAdd (bootTrip (bump s Pg.HRV 0x040)) 6 [1]
  | _ => s

/-- A change of the Harvest that runs. -/
def onRun (s : State) (f : HarvestRun → HarvestRun) : State := onHrv s fun h => { h with run := h.run.map f }

/-- The AON power-on reset is applied with the core rails fallen before the Harvest has ended: an unclean shutdown (R95). -/
def cutHarvest (byPin : Bool) (s : State) : State :=
  applyPor byPin (onHrv (onPwr s fun p => { p with lastDown := .unclean }) fun h => { h with run := none })

/-- PGOOD_CORE_LOSS (R97, R98): a Harvest ignores it, and an AON power-on reset that waits for the core rails to fall is
applied (R95). -/
def doPgoodLoss (s : State) : State :=
  let s := onPwr s fun p => { p with pgood := false }
  if s.pwr.state = .harvest then
    if s.pwr.porDeferred then cutHarvest s.pwr.porByPin s else onRun s fun r => { r with railsFallen := true }
  else if s.pwr.porDeferred then applyPor s.pwr.porByPin s
  else if s.pwr.corePwrEn then trip s
  else s

/-- AON_POWER_ON_RESET (R94, R95): with the core rails up it is a power-fail trip, and the reset waits for SYS_PWRDN or for the
rails to fall. -/
def doPor (byPin : Bool) (s : State) : State :=
  let later (s : State) : State := onPwr s fun p => { p with porDeferred := true, porByPin := byPin }
  match s.pwr.state with
  | .run => startHarvest (later s)
  | .harvest => if (s.hrv.run.map HarvestRun.railsFallen).getD false then cutHarvest byPin s else later s
  | .boot =>
    if s.pwr.corePwrEn then
      let t := trip s
      if s.pwr.pgood then later t else applyPor byPin t
    else applyPor byPin s
  | _ => if s.pwr.porDeferred then s else applyPor byPin s

/-- AON_POR_RELEASE: all straps are sampled, the AON PLL begins to lock, the tagger recalibrates (R39), the sillage log opens
with its record. -/
def doPorRelease (straps : BitVec 5) (s : State) : State :=
  if s.pwr.porHeld then
    sillAdd (onClk (onPwr s fun p =>
      { p with porHeld := false, straps := straps, wait := .aonPll, cause := if p.porByPin then 2 else 1 })
      fun c => { c with recal := true }) 6 [5]
  else s

/-- AON_PLL_LOCK: the count of low PGOOD_CORE samples starts (R96); a relock after REFCLK returns. -/
def doAonLock (s : State) : State :=
  if s.pwr.porHeld then s
  else
    let s := onClk s fun c => { c with aonLock := c.refPresent }
    if s.pwr.wait = .aonPll then onPwr s fun p => { p with wait := .offMin } else s

/-- GLITCH: counted, nothing else (R299). -/
def doGlitch (s : State) : State := if s.coreOn then bump s Pg.HRV 0x048 else s

/-- HARVEST_LUN_DROP and HARVEST_PROG_FAIL (R303). -/
def doLunDrop (lun : Nat) (s : State) : State :=
  if lun ∈ rotation s then onRun s fun r => { r with dropped := setAdd r.dropped lun } else s
def doHarvestFail (lun : Nat) (s : State) : State :=
  if lun ∈ rotation s then onRun s fun r => { r with rewritten := r.rewritten + 1 } else s

/-- Usable bank energy between two voltages, in percent (Table 11.6 MARGIN_PCT). -/
def marginPct (s : State) (vTrip vEnd : Nat) : Nat :=
  let vmin := s.fld Pg.HRV Off.HRV_BANK_CFG1 15 0
  if vTrip ≤ vmin then 0 else 100 * (vEnd * vEnd - vmin * vmin) / (vTrip * vTrip - vmin * vmin)

/-- Step 4 item 5: what is in retained AON SRAM and not yet moved. -/
def carryAon (s : State) : State :=
  let batches := s.hub.batches.flatMap fun e =>
    (e.2.closed ++ (e.2.open?.map fun b => [b]).getD []).map fun b => (e.1, b)
  onHub s fun h =>
    { h with carriedBatches := batches, carriedIvls := h.intervals.map fun v => { v with harvest := true }
             carriedSill := h.sillage, porSinceHarvest := false }

/-- The records of step 4 (R304): the deltas, the Timed Action Table with Fleet Time, the counters and logs, one for each write
of the mirror backlog and for each batch, interval and sillage record carried. DESIGN CHOICE (log 134): one record each. -/
def stepFourRecords (s : State) : Nat :=
  3 + s.acd.backlog.length + s.hub.carriedBatches.length + s.hub.carriedIvls.length + s.hub.carriedSill.length

/-- HARVEST_DONE: steps 4 to 6, with the bank voltage at step 5 and the duration from c0. -/
def doHarvestDone (vEnd durUs : Nat) (s : State) : State :=
  match s.hrv.run with
  | none => s
  | some r =>
    if s.pwr.state ≠ .harvest then s
    else
      let s := journalPut (journalTime (carryAon s)) (.harvest s.hrv.hseq)
      let d : DoneRec :=
        { hseq := s.hrv.hseq, dirty := r.dirty, segments := r.segments, dropped := r.dropped.length
          records := stepFourRecords s, vTrip := r.vTrip
          vEnd := vEnd, durUs := durUs, pair := s.hub.lastPair }
      let log := s.acd.backlog.map fun b => (b.tenant, b.key, b.version, b.deleted)
      let s := onHrv s fun h => { h with run := none, done := some d, backlog := log }
      let s := bumpBy (bump s Pg.HRV 0x050) Pg.HRV 0x060 r.dirty
      let s := onPwr s fun p => { p with lastDown := .harvest, trainingKept := true }
      let deferred := s.pwr.porDeferred
      let s := sillAdd (onPwr (enterPark (coreOff s)) fun p => { p with sysPwrdn := true }) 6 [2]
      if deferred then applyPor s.pwr.porByPin s
      else if s.pwr.wakeLatch = 0 then s
      else bump (setReg s Pg.AON Off.AON_WAKE_SRC (s.pwr.wakeLatch.setWidth 32)) Pg.AON 0x040

/-! ## The bank (R307 to R309) -/

/-- Recompute what the bank allows: WEAK as a state, counted on entry. -/
def bankJudge (s : State) : State :=
  let w := bankWeak s
  let s := if w && !s.hrv.weak then bump s Pg.HRV 0x068 else s
  onHrv s fun h => { h with weak := w }

/-- BANK_CHECK: a sample of the bank, in every power state but OFF; the check itself in BOOT, and every CHECK_MS in RUN. -/
def doBankCheck (mv : Nat) (s : State) : State :=
  if s.pwr.state = .off then s
  else
    let s := onHrv s fun h => { h with vNow := mv }
    if s.pwr.state = .boot ∨ s.pwr.state = .run then
      let s := onHrv s fun h => { h with vBank := mv }
      let s := match s.hrv.cNew with
        | some c => setFlag (onHrv s fun h => { h with cNew := none, cMeas := some c }) Pg.HRV 1
        | none => s
      bankJudge s
    else s

/-- BANK_MEASURE: the time from VCHK_LO_MV to VCHK_HI_MV in AON ticks of 20 ns. -/
def doBankMeasure (ticks : Nat) (s : State) : State :=
  let chg := s.fld Pg.HRV Off.HRV_BANK_CFG3 31 16
  let lo := s.fld Pg.HRV Off.HRV_BANK_CHK 15 0
  let hi := s.fld Pg.HRV Off.HRV_BANK_CHK 31 16
  if chg = 0 ∨ hi ≤ lo ∨ s.pwr.state = .off then s
  else onHrv s fun h => { h with cNew := some (min 65535 (chg * ticks / (50 * (hi - lo)))) }

/-! ## Recovery (R313 to R319) -/

/-- Open intents: every block under erase is erased again under a new intent (R315). -/
def reEraseOpen (s : State) : Nat × State :=
  s.ftl.luns.foldl (fun (acc : Nat × State) l =>
    l.2.erasing.foldl (fun (acc : Nat × State) b =>
      let s := startErase acc.2 l.1 b.1
      (acc.1 + 1, bump (doEraseDone l.1 b.1 s) Pg.HRV 0x070)) acc) (0, s)

/-- Free blocks that do not read as clean are erased again (R315). -/
def reEraseFree (s : State) (blocks : List (Nat × Nat)) : State :=
  blocks.foldl (fun s e =>
    let t := startErase s e.1 e.2
    eraseEnds t e.1 e.2 t.hrv.esn) s

/-- The Harvest blocks are erased, each under its intent (R312, R318). -/
def eraseHarvest (s : State) : State :=
  (rotation s).foldl (fun s n => (List.range s.ftl.hrvBlk).foldl (fun s i =>
    let e := s.hrv.esn + 1
    let s := bump (onHrv s fun h => { h with esn := e }) (nchPage n) 0x050
    journalPut (journalPut s (.intent n (16 + i) e)) (.erased n (16 + i) e)) s) s

/-- Image segments that do not decode: the data they held is lost from the write buffer, and their keys are affected
(R316), under an event as a write-buffer error opens (Table 9.7; DEDUCED, log 135). -/
def loseSegments (s : State) (segs : List (Nat × Nat)) : State :=
  if segs.isEmpty then s
  else
    let (num, s) := openEvent s 7 0xFFFF false
    let s := segs.foldl (fun s g => onSheaf s g.1 fun x => { x with dirty := storeErase x.dirty g.2 }) s
    internalErr (writeHeader (affectGrains s num segs []) num) Pg.HRV 0x42

/-- An unclean recovery: commits past the first missing record are not recovered, and every version counter moves on by
2³² (R317). Mirrored tenants then take everything from the twin. -/
def undoCommits (s : State) (undone : List (Nat × List Byte × Option KeyEntry)) : State :=
  let s := undone.foldl (fun s u =>
    match u.2.2 with
    | some e => putKey s u.1 e
    | none => dropKey s u.1 u.2.1) s
  let s := (List.range 64).foldl (fun s n => onTen s n fun t => { t with verCtr := t.verCtr + 2 ^ 32 }) s
  (List.range 64).foldl (fun s n => if s.mirrored n then makeDivFull s n else s) s

/-- The mirror backlog that a Harvest journaled joins the divergence sets (R304). -/
def backlogBack (s : State) : State :=
  let l := s.hrv.backlog
  l.foldl (fun s b => recordDiv s b.1 b.2.1 b.2.2.1 s.acd.epoch b.2.2.2 [])
    (onHrv s fun h => { h with backlog := [] })

/-- What the done record says of the last Harvest (R319). -/
def reportHarvest (s : State) : State :=
  match s.hrv.done with
  | none => s
  | some d =>
    let fixed := s.hrv.rateMBs ≠ 0 && decide (3000 * s.hrv.rateMBs + d.dirty < d.durUs * s.hrv.rateMBs)
    let s := onHrv s fun h =>
      { h with lastDur := d.durUs, lastKib := d.dirty / 1024, lastDone := true, lastIncomplete := false
               lastDropped := d.dropped, lastMargin := marginPct s d.vTrip d.vEnd, slow := fixed }
    let s := setFlags s Pg.HRV (if fixed then 0x44 else 0x04)
    if d.dropped = 0 then s else internalErr s Pg.HRV 0x40

/-- RECOVERY: stages 1 to 8 of Table 11.4. -/
def doRecovery (f : RecoveryFinding) (s : State) : State :=
  if !(s.pwr.state = .boot && s.pwr.discovered && s.pwr.needRecovery) then s
  else
    let unclean := s.pwr.lastDown = .unclean
    let s := if unclean then undoCommits s f.undone else s
    let (n, s) := reEraseOpen s
    let s := bumpBy (reEraseFree (reEraseFree s f.notClean) f.headed) Pg.HRV 0x078 f.checked
    let segs := f.segUncorr.filter fun g => dirtyGrain s g.1 g.2
    let s := loseSegments s segs
    let s := backlogBack (eraseHarvest (journalCheckpoint (flushAll 4 s) (.recovered s.hrv.hseq)))
    let s := onHrv s fun h =>
      { h with reerased := min 65535 n, emptyFail := min 65535 f.notClean.length, recovMs := min 65535 f.ms
               recovKind := if unclean then 2 else 1, segUncorr := segs.length }
    let s := if n = 0 then s else setFlag s Pg.HRV 4
    let s := if unclean then
        let s := setFlag (bump s Pg.HRV 0x058) Pg.HRV 3
        let s := onHrv s fun h => { h with lastDone := false, lastIncomplete := true }
        internalErr s Pg.HRV 0x41
      else reportHarvest s
    let s := onTat (onPwr s fun p => { p with needRecovery := false, lastDown := .settle }) fun t => { t with loaded := true }
    setStage s 7

/-! ## RUN entry (R111) -/

/-- At entry to RUN every AON page that is pending delivers once to NOTIFY and to the LMF, where it is routed to them (R83). -/
def owedAon (s : State) : State :=
  ((List.range 256).filter fun p => aonPage p && s.irqPend p).foldl (fun s p => [0, 3].foldl (deliverOnce · p ·) s) s

/-- The lateness pass is deferred: Fleet Time is UNSET, or FREE with REQUIRE_SYNC (R53, R111). -/
def passDeferred (s : State) : Bool := s.ft.mode = .unset || (s.ft.mode = .free && s.bit Pg.TAT Off.TAT_TAT_CFG 1)

/-- RUN_ENTRY. -/
def doRunEntry (s : State) : State :=
  if s.pwr.state = .boot && s.pwr.image && s.pwr.discovered && !s.pwr.needRecovery && s.tat.loaded &&
      (passDeferred s || !s.tat.passDue) then
    let ms := min 0xFFFF (s.fratra.coreUs / 1000)
    let s := setFldOf (setStage s 8) Pg.RST Off.RST_BOOT_STAGE 31 16 ms
    let s := onPwr s fun p => { p with state := .run }
    let s := restoreSnapshot { s with fratra := { s.fratra with hold := false } }
    let s := acdOn s
    let s := (List.range 64).foldl keyHoldCheck s
    let s := lmfFlush (replayParked (carriedBack (owedAon s)))
    let s := if s.bit Pg.RST Off.RST_RST_CAUSE 2 then setFlag s Pg.AON 4 else s
    if s.pwr.slowOwed then setFlag (onPwr s fun p => { p with slowOwed := false }) Pg.PWR 2 else s
  else s

/-! ## The commands -/

def execAonPorRelease (straps : BitVec 5) (s : State) : Host.Outcome State Fault Refusal := done (doPorRelease straps s)
def execAonPllLock (s : State) : Host.Outcome State Fault Refusal := done (doAonLock s)
def execPowerUp (s : State) : Host.Outcome State Fault Refusal := done (doPowerUp s)
def execPgoodCoreRise (s : State) : Host.Outcome State Fault Refusal := done (doPgoodRise s)
def execPgoodTimeout (s : State) : Host.Outcome State Fault Refusal := done (doPgoodTimeout s)
def execRetryWaitEnd (s : State) : Host.Outcome State Fault Refusal := done (doRetryEnd s)
def execPgoodStuck (s : State) : Host.Outcome State Fault Refusal := done (doPgoodStuck s)
def execCoreResetRelease (s : State) : Host.Outcome State Fault Refusal := done (doCoreRelease s)
def execGlitch (s : State) : Host.Outcome State Fault Refusal := done (doGlitch s)
def execHarvestLunDrop (lun : Nat) (s : State) : Host.Outcome State Fault Refusal := done (doLunDrop lun s)
def execHarvestProgFail (lun : Nat) (s : State) : Host.Outcome State Fault Refusal := done (doHarvestFail lun s)
def execHarvestDone (vEnd durUs : Nat) (s : State) : Host.Outcome State Fault Refusal := done (doHarvestDone vEnd durUs s)
def execSettleDrainLimit (s : State) : Host.Outcome State Fault Refusal := done (doDrainLimit s)
def execSettleComplete (slow : Bool) (s : State) : Host.Outcome State Fault Refusal := done (doSettleComplete slow s)
def execResetNAssert (s : State) : Host.Outcome State Fault Refusal := done (doResetAssert s)
def execResetNRelease (straps : BitVec 5) (s : State) : Host.Outcome State Fault Refusal := done (doResetRelease straps s)
def execWarmResetHoldEnd (straps : BitVec 5) (s : State) : Host.Outcome State Fault Refusal := done (releaseHold straps s)
def execWdtWarn (s : State) : Host.Outcome State Fault Refusal := done (doWdtWarn s)
def execWdtExpire (s : State) : Host.Outcome State Fault Refusal := done (doWdtExpire s)
def execImageVerify (image : ImageRead) (s : State) : Host.Outcome State Fault Refusal := done (doImageVerify image s)
def execPopulationDiscovery (pop : Population) (s : State) : Host.Outcome State Fault Refusal := done (doDiscovery pop s)
def execRecovery (found : RecoveryFinding) (s : State) : Host.Outcome State Fault Refusal := done (doRecovery found s)
def execRunEntry (s : State) : Host.Outcome State Fault Refusal := done (doRunEntry s)
def execBankCheck (millivolts : Nat) (s : State) : Host.Outcome State Fault Refusal := done (doBankCheck millivolts s)
def execBankMeasure (ticks : Nat) (s : State) : Host.Outcome State Fault Refusal := done (doBankMeasure ticks s)

end Sys2Proof.Machine
end

