-- ==== Sys2Proof/Machine/Show.lean ====
section
/-! DEFINITION. Machine/Show.lean: what the read-only registers of each page show of the machine behind them, computed at
the read. A register not named here shows what the register store holds. -/

namespace Sys2Proof.Machine

/-! ## Common registers (Tables 3.3 to 3.9) -/

/-- The block behind a page is initialised: not in soft reset, its page enabled; CORE blocks from RUN on, but for the
pages that BOOT serves and that are up with the core (R64, R111). -/
def pageReady (s : State) (page : Nat) : Bool :=
  s.en page && !s.inReset.contains page &&
    (aonPage page || s.pwr.state = .run || s.pwr.state = .harvest ||
      (s.pwr.state = .boot && (decide (page ≤ 0x007) || decide (page = Pg.USBH) || decide (page = Pg.LMF) || decide (page = Pg.HKP))))

/-- BUSY (Table 3.7): an operation started through the page is in progress. -/
def pageBusy (s : State) (page : Nat) : Bool :=
  if page = Pg.SEC then s.sec.busy.isSome
  else if page = Pg.STEER then s.snap.saving.isSome
  else if page = Pg.PWR then (s.pwr.settle.map Settle.byPwr).getD false
  else if page = Pg.RST then (s.pwr.settle.map Settle.byRst).getD false
  else if 0x040 ≤ page ∧ page < 0x080 then (s.ten (page - 0x040)).rstBusy || (s.ten (page - 0x040)).purgeBusy
  else if 0x081 ≤ page ∧ page ≤ 0x090 then (s.chan (page - 0x081)).training
  else if page = Pg.ACD then s.acd.reqPending.isSome && s.acd.reqByCmd
  else if page = Pg.AQE then runActive s && s.aqe.byCmd
  else false

/-- PAGE_STAT (Table 3.7). -/
def pageStat (s : State) (page : Nat) : Word :=
  flagBit 0 (pageBusy s page) ||| flagBit 1 (pageReady s page) ||| flagBit 2 (decide (s.fld page Off.ERR_CODE 7 0 ≠ 0)) |||
    flagBit 3 (s.irqPend page) ||| flagBit 4 (s.inReset.contains page) ||| flagBit 5 (aonPage page)

/-! ## Pages -/

/-- Bit `k` for each `k` below 32 that holds. -/
def bitsOf (f : Nat → Bool) : Word :=
  (List.range 32).foldl (fun w k => if f k then w ||| BitVec.ofNat 32 (2 ^ k) else w) 0

/-- A number in a 32-bit register, saturating. -/
def satWord (n : Nat) : Word := BitVec.ofNat 32 (min n 0xFFFFFFFF)

/-- STRAPS and the interrupt summary (Table 3.14). -/
def sysShow (s : State) (off : Nat) : Option Word :=
  if off = Off.SYS_STRAPS then some (s.pwr.straps.setWidth 32)
  else if 0x200 ≤ off ∧ off < 0x220 then
    some (bitsOf fun k =>
      let p := (off - 0x200) / 4 * 32 + k
      (blockOf p).isSome && s.irqPend p && (aonPage p || s.coreOn))
  else none

def clkShow (s : State) (off : Nat) : Option Word :=
  if off = Off.CLK_CLK_STAT then some (clkStat s) else if off = Off.CLK_CLK_HOLD then some (clkHold s) else none

/-- PWR_STATE STATE. -/
def pstateNum : PState → Nat
  | .off => 0
  | .park => 1
  | .boot => 2
  | .run => 3
  | .harvest => 4

def pwrShow (s : State) (off : Nat) : Option Word :=
  if off = Off.PWR_PWR_STATE then
    some (Word.place 2 0 (pstateNum s.pwr.state) ||| flagBit 8 s.pwr.settle.isSome |||
      flagBit 9 ((s.pwr.settle.map Settle.warm).getD false))
  else if off = Off.PWR_PWR_STAT then
    some ((s.reg Pg.PWR off &&& 0xFFFFFFF8) ||| flagBit 0 s.pwr.pgood ||| flagBit 1 s.pwr.corePwrEn |||
      flagBit 2 s.pwr.resetN)
  else none

/-- BOOT_STAGE, whose ELAPSED_MS runs until READY. -/
def rstShow (s : State) (off : Nat) : Option Word :=
  if off = Off.RST_BOOT_STAGE ∧ s.fld Pg.RST off 3 0 ≠ 8 then
    some ((s.reg Pg.RST off).setFld 31 16 (min 0xFFFF (s.fratra.coreUs / 1000)))
  else none

def timeShow (s : State) (off : Nat) : Option Word :=
  if off = Off.TIME_FT_STAT then some (ftStat s) else if off = Off.TIME_CORR_HEAD then some (corrHead s) else none

def evfShow (s : State) (off : Nat) : Option Word :=
  if off = Off.EVF_CH_ACTIVE0 then some (chActive s 0)
  else if off = Off.EVF_CH_ACTIVE1 then some (chActive s 32)
  else if 0x400 ≤ off ∧ off < 0xA00 ∧ off % 32 = 0x1C then some (chStat s ((off - 0x400) / 32))
  else none

def secShow (s : State) (off : Nat) : Option Word :=
  if off = Off.SEC_SEC_STAT then some (secStat s)
  else if off = Off.SEC_BOOT_VER then some (bootVer s)
  else if off = Off.SEC_KEY_REVOKE then some (s.sec.revoked.setWidth 32)
  else if off = Off.SEC_KS_STAT then some (ksStat s)
  else none

/-- PORT_STAT, RXQ_STAT, BUF_STAT, TX_TS_STAT (Table 5.9). -/
def macShow (s : State) (k off : Nat) : Option Word :=
  let p := s.port k
  if off = Off.MAC_PORT_STAT then
    some (flagBit 0 p.link ||| flagBit 1 p.anDone ||| Word.place 4 2 p.speed ||| flagBit 5 p.fecLock |||
      flagBit 6 p.localFault ||| flagBit 7 p.remoteFault ||| flagBit 8 p.paused ||| Word.place 23 16 p.pfcPaused.toNat)
  else if 0x1C0 ≤ off ∧ off < 0x200 then
    let q := (off - 0x1C0) / 4
    some (Word.place 11 0 (cellsHeld p q) ||| Word.place 26 16 (framesHeld p q) ||| flagBit 31 (p.xoff.contains q))
  else if off = Off.MAC_BUF_STAT then some (Word.place 11 0 (freeCells p) ||| Word.place 26 16 (freeDesc p))
  else if off = Off.MAC_TX_TS_STAT then some (BitVec.ofNat 32 p.tsFifo.length)
  else none

def steerShow (s : State) (off : Nat) : Option Word :=
  if off = Off.STEER_CFG_STAT then
    some (flagBit 0 s.snap.saved.isSome ||| flagBit 1 s.snap.saving.isSome ||| flagBit 2 s.snap.restored |||
      Word.place 31 16 s.snap.seq)
  else none

def fwpShow (s : State) (off : Nat) : Option Word :=
  if off = Off.FWP_STREAMS_USED then some (BitVec.ofNat 32 s.fratra.streams.length)
  else if off = Off.FWP_OPTAGS_USED then some (BitVec.ofNat 32 (opTagsAll s))
  else none

def kvxShow (s : State) (off : Nat) : Option Word :=
  if off = Off.KVX_KEY_CAP_LO then some (lo32 (keyCap s))
  else if off = Off.KVX_KEY_CAP_HI then some (hi32 (keyCap s))
  else if off = Off.KVX_INC_STAT then
    some (flagBit 0 s.fratra.incident.openNow ||| Word.place 31 16 s.fratra.incident.events)
  else if off = Off.KVX_STAGED then some (BitVec.ofNat 32 (min 255 s.fratra.swaps.length))
  else if off = Off.KVX_NEXT_SWAP_ID then some (BitVec.ofNat 32 s.fratra.nextSwap)
  else none

def tenShow (s : State) (n off : Nat) : Option Word :=
  let t := s.ten n
  if off = Off.TEN_TEN_STAT then
    some (flagBit 0 t.rstBusy ||| flagBit 1 t.purgeBusy ||| flagBit 2 t.keyHold ||| flagBit 3 (streamHold s n))
  else if off = Off.TEN_OPTAGS_USED then some (BitVec.ofNat 32 (opTags s n))
  else if off = Off.TEN_STREAMS_USED then some (BitVec.ofNat 32 (streamsOf s n))
  else if off = Off.TEN_AES_KCV then some (BitVec.ofNat 32 t.aesKcv)
  else none

/-- The LUN with the fewest free blocks, the lowest number among equals (FREE_MIN). -/
def freeMin (s : State) : Option (Nat × Nat) :=
  (rotation s).foldl (fun (b : Option (Nat × Nat)) n =>
    let f := freeBlocks s (s.lun n)
    match b with
    | none => some (f, n)
    | some (g, m) => if f < g ∨ (f = g ∧ n < m) then some (f, n) else some (g, m)) none

/-- LUNs of the rotation order in an upkeep state. -/
def upkeepCount (s : State) (u : Nat) : Nat := ((rotation s).filter fun n => (s.lun n).upkeep = u).length

def ftlShow (s : State) (off : Nat) : Option Word :=
  let part := refPart s
  let order := rotation s
  let some_ := !order.isEmpty
  if off = Off.FTL_POP then
    some (Word.place 9 0 order.length |||
      (if some_ then Word.place 13 12 (if part.cell = 2 then 2 else 1) ||| Word.place 15 14 (cellBits part) else 0))
  else if off = Off.FTL_GEOM then
    let goods := order.map fun n => (s.lun n).good
    some (Word.place 15 0 (goods.foldl min (goods.headD 0)) ||| (if some_ then Word.place 31 16 part.pages else 0))
  else if off = Off.FTL_GEOM2 then
    some ((if some_ then Word.place 7 0 part.pageKib else 0) ||| Word.place 15 8 s.ftl.hrvBlk)
  else if off = Off.FTL_NAME_RSV then some (satWord (nameRsv s))
  else if off = Off.FTL_GMAP_USED then some (BitVec.ofNat 32 (gmapBytes s / 1048576))
  else if off = Off.FTL_REGIONS_RES then some (BitVec.ofNat 32 (regionsResident s))
  else if off = Off.FTL_REGIONS_EVICT then some (BitVec.ofNat 32 (regionsEvicted s))
  else if off = Off.FTL_SMAP_USED then some (BitVec.ofNat 32 s.ftl.sheaves.length)
  else if off = Off.FTL_FREE_MIN then
    some (match freeMin s with
      | some (f, n) => Word.place 15 0 f ||| Word.place 24 16 n
      | none => 0)
  else if off = Off.FTL_UPKEEP_STATE then
    some (Word.place 9 0 (upkeepCount s 1) ||| Word.place 19 10 (upkeepCount s 2) ||| Word.place 29 20 (upkeepCount s 3))
  else none

/-- Commands queued for a LUN: its programs, erases and moves. -/
def lunQueue (s : State) (n : Nat) : Nat :=
  let l := s.lun n
  (s.ftl.progs.filter fun p => decide (p.2.lun = n)).length + l.erasing.length + l.moveQueue.length +
    (if l.move.isSome then 1 else 0)

def nchShow (s : State) (c off : Nat) : Option Word :=
  let x := s.chan c
  if off = Off.NCH_NCH_STAT then
    some (Word.place 1 0 x.iface ||| Word.place 15 4 x.rate ||| flagBit 16 x.trained ||| flagBit 17 x.training)
  else if off = Off.NCH_LUN_PRESENT then some (bitsOf fun k => lunPresent (s.lun (32 * c + k)))
  else if off = Off.NCH_LUN_EXCLUDED then some (bitsOf fun k => (s.lun (32 * c + k)).excluded)
  else if 0x180 ≤ off ∧ off < 0x200 then
    let n := 32 * c + (off - 0x180) / 4
    let l := s.lun n
    some (if lunPresent l then
        Word.place 15 0 (freeBlocks s l) ||| Word.place 17 16 l.upkeep ||| Word.place 31 24 (min 255 (lunQueue s n))
      else 0)
  else none


def eccShow (s : State) (off : Nat) : Option Word :=
  let h := s.ftl.health
  if off = Off.ECC_PATROL_STAT then
    let t := (patrolPages s).length
    some (Word.place 9 0 (if t = 0 then 0 else 1000 * patrolSeen s / t) ||| flagBit 10 h.patrolOverdue |||
      Word.place 31 16 h.patrolPasses)
  else if off = Off.ECC_LAST_UE then
    some (match h.lastUe with
      | some (lun, b, _, _) => Word.place 9 0 lun ||| Word.place 31 16 b
      | none => 0)
  else if off = Off.ECC_LAST_UE_PAGE then
    some (match h.lastUe with
      | some (_, _, p, cw) => Word.place 15 0 p ||| Word.place 17 16 cw
      | none => 0)
  else none

def hlthShow (s : State) (off : Nat) : Option Word :=
  let h := s.ftl.health
  if off = Off.HLTH_HEAL_STAT then
    some (flagBit 0 (decide (damageCount s .healing ≠ 0)) ||| flagBit 1 h.waitingTwin |||
      flagBit 2 (h.events.any HlogEvent.identRunning))
  else if off = Off.HLTH_HLOG_EVENT then some (BitVec.ofNat 32 h.eventNum)
  else if 0x140 ≤ off ∧ off < 0x180 then some (bitsOf fun k => (s.lun ((off - 0x140) / 4 * 32 + k)).failed)
  else none

/-- DRAM_STAT and the sizes of Table 9.5 (R256, R267). -/
def dramShow (s : State) (off : Nat) : Option Word :=
  let g := s.ftl.dram.gib
  let size (n : Nat) : Option Word := some (if g = 0 then 0 else BitVec.ofNat 32 n)
  if off = Off.DRAM_DRAM_STAT then
    some (Word.place 7 0 g ||| (if s.ftl.dram.trained then Word.place 15 8 64 else 0) ||| flagBit 16 s.ftl.dram.trained)
  else if off = Off.DRAM_ECC_MIB then size (g * 32)
  else if off = Off.DRAM_WB_MIB then size 2048
  else if off = Off.DRAM_SMAP_MIB then size 512
  else if off = Off.DRAM_WORK_MIB then size 256
  else if off = Off.DRAM_RCACHE_MIB then size (1280 - g * 32)
  else if off = Off.DRAM_VAR_MIB then size ((g - 4) * 1024)
  else if off = Off.DRAM_UE_LAST_ADDR then some (BitVec.ofNat 32 s.ftl.dram.lastAddr)
  else none

def hrvShow (s : State) (off : Nat) : Option Word :=
  let h := s.hrv
  if off = Off.HRV_BANK_STAT then
    some (Word.place 15 0 (min 65535 h.vBank) ||| flagBit 16 h.cMeas.isSome ||| flagBit 17 h.weak |||
      flagBit 18 (decide (h.vBank ≤ s.fld Pg.HRV Off.HRV_BANK_CFG1 15 0)))
  else if off = Off.HRV_BANK_C then some (Word.place 15 0 (h.cMeas.getD 0) ||| Word.place 31 16 (cUsed s))
  else if off = Off.HRV_BUDGET_STAT then
    some (Word.place 15 0 (bEff s / 1048576) ||| Word.place 31 16 (min 65535 (dMax s / 1048576)))
  else if off = Off.HRV_DIRTY_KIB then some (Word.place 21 0 (dirtyBytes s / 1024))
  else if off = Off.HRV_RATE then some (Word.place 15 0 (min 65535 h.rateMBs) ||| Word.place 31 16 3000)
  else if off = Off.HRV_AREA_MIB then some (BitVec.ofNat 32 (min 65535 (areaMib s)))
  else if off = Off.HRV_LAST_DUR_US then some (satWord h.lastDur)
  else if off = Off.HRV_LAST_KIB then some (satWord h.lastKib)
  else if off = Off.HRV_LAST_INFO then
    some (flagBit 0 h.lastDone ||| flagBit 1 h.lastIncomplete ||| Word.place 15 8 (min 255 h.lastDropped) |||
      Word.place 22 16 (min 127 h.lastMargin))
  else if off = Off.HRV_HSEQ then some (BitVec.ofNat 32 h.hseq)
  else if off = Off.HRV_RECOV_STAT then some (Word.place 15 0 h.reerased ||| Word.place 31 16 h.emptyFail)
  else if off = Off.HRV_RECOV_INFO then some (Word.place 15 0 h.recovMs ||| Word.place 17 16 h.recovKind)
  else if off = Off.HRV_SEG_UNCORR then some (BitVec.ofNat 32 h.segUncorr)
  else none

/-- The comparators, and SILL_STAT (Table 13.12). -/
def aonShow (s : State) (off : Nat) : Option Word :=
  if 0x120 ≤ off ∧ off < 0x160 ∧ off % 16 = 0 then some (lo32 (storeLook s.hub.cmp ((off - 0x120) / 16) 0))
  else if 0x120 ≤ off ∧ off < 0x160 ∧ off % 16 = 4 then some (hi32 (storeLook s.hub.cmp ((off - 0x120) / 16) 0))
  else if off = Off.AON_SILL_STAT then some (sillStat s)
  else none

def gpioShow (s : State) (off : Nat) : Option Word :=
  if off = Off.GPIO_GPI_IN then some s.bus.gpiIn
  else if off = Off.GPIO_GPI_RAW then some s.bus.gpiRaw
  else if off = Off.GPIO_RAIL_STAT then some (railStat s)
  else none

def batShow (s : State) (off : Nat) : Option Word :=
  if off = Off.BAT_BLOCKS then some (batBlocks s)
  else if 0x400 ≤ off ∧ off < 0x800 ∧ off % 16 = 12 then some (s.streamVal ((off - 0x400) / 16))
  else if 0x800 ≤ off ∧ off < 0x900 then some (strHeld s ((off - 0x800) / 4))
  else none

def aqeShow (s : State) (off : Nat) : Option Word :=
  if off = Off.AQE_AQE_STAT then some (aqeStat s)
  else if off = Off.AQE_RSEQ_NEXT then some (BitVec.ofNat 32 s.aqe.rseq)
  else if off = Off.AQE_SEG_COUNTS then some (segCounts s)
  else if off = Off.AQE_SEG_INFO then some (segInfo s)
  else if 0x800 ≤ off then some (segWindow s off)
  else none

/-- UP_STAT STATE. -/
def usbUpNum : UsbUp → Nat
  | .detached => 0
  | .attached => 1
  | .default => 2
  | .address => 3
  | .configured => 4

/-- USB_DNn_PEN as driven (R468, R470). -/
def penPin (s : State) (n : Nat) : Bool :=
  (storeLook s.usb.ports n {}).power && s.bit Pg.USBH Off.USBH_USBH_CFG (1 + n) && s.coreOn

def usbhShow (s : State) (off : Nat) : Option Word :=
  let u := s.usb
  if off = Off.USBH_UP_STAT then
    some (Word.place 2 0 (usbUpNum u.up) ||| flagBit 3 u.suspended ||| flagBit 4 u.highSpeed ||| flagBit 5 u.vbus |||
      Word.place 14 8 u.lmfAddr ||| flagBit 16 u.rwakeHub ||| flagBit 17 u.rwakeLmf)
  else if off = Off.USBH_FRAME then some (Word.place 10 0 (u.frame / 8) ||| Word.place 13 11 (u.frame % 8))
  else if off = Off.USBH_TT_STAT then some (Word.place 2 0 u.ttNp ||| Word.place 12 8 u.ttPeriodic)
  else if off = Off.USBH_PORT_STAT 0 ∨ off = Off.USBH_PORT_STAT 1 then
    let n := (off - Off.USBH_PORT_STAT 0) / 4
    let p := storeLook u.ports n {}
    some (flagBit 0 (p.connect && s.bit Pg.USBH Off.USBH_USBH_CFG (1 + n)) ||| flagBit 1 p.enable ||| flagBit 2 p.suspend |||
      flagBit 3 p.overCurrent ||| flagBit 4 p.reset ||| flagBit 8 p.power ||| flagBit 9 p.lowSpeed |||
      flagBit 10 p.highSpeed ||| flagBit 11 (penPin s n) ||| flagBit 12 p.ocN)
  else none

def lmfShow (s : State) (off : Nat) : Option Word :=
  let u := s.usb
  if off = Off.LMF_SEQ_STAT then some (Word.place 15 0 u.outExp ||| Word.place 31 16 u.inNext)
  else if off = Off.LMF_BUF_STAT then some (Word.place 3 0 u.bulk.length ||| Word.place 11 8 u.inQueue.length)
  else if off = Off.LMF_HALT_STAT then
    some (flagBit 0 u.haltOut ||| flagBit 1 u.haltIn ||| flagBit 2 u.haltEp2 ||| Word.place 10 8 u.haltCause)
  else if off = Off.LMF_EP2_STAT then some (Word.place 5 0 u.ep2.length ||| Word.place 31 16 u.nseq)
  else none

/-- MBOX_STAT, HKP_STAT, IMG_STAT (Table 17.11). -/
def hkpShow (s : State) (off : Nat) : Option Word :=
  if off = Off.HKP_MBOX_STAT then
    some (match s.usb.mailbox with
      | some m => flagBit 0 true ||| flagBit 1 m.reply.isSome ||| flagBit 2 m.lmf ||| Word.place 31 16 (beNat (m.msg.take 2))
      | none => 0)
  else if off = Off.HKP_HKP_STAT then
    some (flagBit 0 (decide (s.pwr.state = .boot) && !s.pwr.image && decide (s.pwr.wait = .none)) ||| flagBit 1 s.pwr.image)
  else if off = Off.HKP_IMG_STAT then
    some (match s.usb.image with
      | some i => Word.place 2 0 i.target ||| flagBit 3 true ||| Word.place 31 8 i.data.length
      | none => 0)
  else none

/-! ## One register -/

/-- What a block's own registers show that the store does not hold. -/
def blockShow (s : State) (b : Block) (inst off : Nat) : Option Word :=
  match b with
  | .sys => sysShow s off
  | .clk => clkShow s off
  | .pwr => pwrShow s off
  | .rst => rstShow s off
  | .time => timeShow s off
  | .tat => tatShow s off
  | .evf => evfShow s off
  | .sec => secShow s off
  | .mac => macShow s inst off
  | .steer => steerShow s off
  | .fwp => fwpShow s off
  | .kvx => kvxShow s off
  | .ten => tenShow s inst off
  | .ftl => ftlShow s off
  | .nch => nchShow s inst off
  | .ecc => eccShow s off
  | .hlth => hlthShow s off
  | .dram => dramShow s off
  | .hrv => hrvShow s off
  | .acd =>
    if off = Off.ACD_LINK_STAT ∨ off = Off.ACD_PAIR_STAT ∨ (0x110 ≤ off ∧ off < 0x120) ∨ 0x140 ≤ off then
      some (acdShow s off) else none
  | .acl => if off = Off.ACL_LANE_STAT ∨ off = Off.ACL_EYE then some (aclShow s inst off) else none
  | .aon => aonShow s off
  | .psq => if off = Off.PSQ_PSQ_STAT then some (psqStat s) else none
  | .i2c => if off = Off.I2C_I2C_STAT then some (i2cStat s inst) else none
  | .uart => if off = Off.UART_UART_STAT then some (uartStat s inst) else none
  | .adc => none
  | .gpio => gpioShow s off
  | .recog => if off = Off.REC_REC_STATE then some (recStates s) else none
  | .bat => batShow s off
  | .aqe => aqeShow s off
  | .meas => none
  | .usbh => usbhShow s off
  | .lmf => lmfShow s off
  | .hkp => hkpShow s off

/-- The value of a register pair whose low word's read latches the high word into the path's shadow: by its low offset. -/
def latchPairValue (s : State) (b : Block) (inst off : Nat) : Option Nat :=
  match b with
  | .kvx => if off = Off.KVX_KEYS_LO then some (keyTotal s) else none
  | .ten =>
    if off = Off.TEN_KEYS_LO then some (keyCount s inst)
    else if off = Off.TEN_USED_LO then some (usedCharge s inst)
    else if off = Off.TEN_VER_LO then some (s.ten inst).verCtr
    else none
  | .ftl => if off = Off.FTL_USABLE_LO then some (usable s) else none
  | .hlth =>
    if off = Off.HLTH_HEALING_LO then some (damageCount s .healing)
    else if off = Off.HLTH_LOST_LO then some (damageCount s .lost)
    else none
  | .dram => if off = Off.DRAM_SLOTS_FREE_LO then some (slotsFree s) else none
  | .hrv => if off = Off.HRV_ESN_LO then some s.hrv.esn else none
  | .aon => if off = Off.AON_TICK_LO then some s.hub.tick else none
  | _ => none

end Sys2Proof.Machine
end

