-- ==== Sys2Proof/Machine/Window.lean ====
section
/-! DEFINITION. Machine/Window.lean: the register window (chapter 03): who may write and read, how rejections are recorded,
what a write or a read of each register does, page soft reset and EN, and the commands that are such accesses. -/

namespace Sys2Proof.Machine

/-! ## Who asks (R62 to R64) -/

/-- The identity of an access (Table 3.10). -/
def reqTenant (r : Req) : Nat :=
  match r.path with
  | .fratra | .hkp => 0
  | .lmf | .tat => r.tenant % 64

/-- The secure attribute of an access (Table 3.10). -/
def reqSec (s : State) (r : Req) : Bool :=
  match r.path with
  | .hkp => true
  | .lmf => s.sec.session
  | .fratra | .tat => r.sec

/-- The core runs and its reset is released in BOOT. -/
def bootServes (s : State) : Bool := s.pwr.state = .boot && s.pwr.wait = .none

/-- The power states in which a path carries accesses (Table 3.10). -/
def pathServed (s : State) (p : Path) : Bool :=
  match p with
  | .fratra => s.inRun
  | .lmf => s.inRun || bootServes s
  | .hkp => s.inRun || bootServes s || s.pwr.state = .harvest
  | .tat => !tatPaused s

/-- The pages that the LMF path reaches in BOOT (R64). -/
def bootPage (page : Nat) : Bool :=
  page = Pg.SYS || page = Pg.PWR || page = Pg.RST || page = Pg.SEC || page = Pg.USBH || page = Pg.LMF || page = Pg.HKP

/-- Step 1 of Table 3.11: PATH_OFF (R63), NOT_READY (R64), or 0. -/
def pathCode (s : State) (r : Req) (page : Nat) : Nat :=
  match r.path with
  | .fratra => if s.bit Pg.SYS Off.SYS_PATH_EN 0 then 0 else 0x89
  | .lmf =>
    if !s.bit Pg.SYS Off.SYS_PATH_EN 1 || (decide (reqTenant r ≠ 0) && !s.bit Pg.SYS Off.SYS_PATH_EN 2) then 0x89
    else if s.pwr.state = .boot ∧ (blockOf page).isSome = true ∧ bootPage page = false then 0x88
    else 0
  | .hkp | .tat => 0

/-! ## Recording (R68) -/

/-- The record of Table 3.9. -/
def accRecord (s : State) (r : Req) (off code : Nat) (read : Bool) : Word :=
  Word.place 7 0 code ||| Word.place 17 8 (off / 4) ||| Word.place 23 18 (reqTenant r) ||| flagBit 24 (reqSec s r) |||
    Word.place 26 25 (pathNum r.path) ||| flagBit 30 read

/-- The latest rejection, device-wide (Table 3.14). -/
def lastReject (s : State) (page off : Nat) (record : Word) : State :=
  setReg (setReg s Pg.SYS Off.SYS_REJ_LAST_ADDR (BitVec.ofNat 32 (addr page off))) Pg.SYS Off.SYS_REJ_LAST_INFO record

/-- A rejected access (R68 steps 1 to 4). -/
def rejectAcc (s : State) (r : Req) (page off code : Nat) (read : Bool) : State :=
  let record := accRecord s r off code read
  let s := if (blockOf page).isSome then loadErr s page record else s
  let s := bump s Pg.SYS (0x040 + 8 * pathNum r.path)
  let s := if code = 0x85 then bump s Pg.SYS 0x068 else s
  answerAcc (setFlag (lastReject s page off record) Pg.SYS 0) r.path code 0

/-- An access to a reserved page (R6, R68). -/
def noPage (s : State) (r : Req) (page off : Nat) (read : Bool) : State :=
  let s := lastReject (bump s Pg.SYS 0x060) page off (accRecord s r off 0x84 read)
  answerAcc (setFlag s Pg.SYS 1) r.path 0x84 0

/-! ## Interrupt registers (R61, R73, R81) -/

/-- How many IRQ_FLAG bits each block has, from bit 0. -/
def flagWidth : Block → Nat
  | .sys => 2 | .clk => 3 | .pwr => 3 | .rst => 2 | .time => 4 | .tat => 5 | .evf => 4 | .sec => 3 | .mac => 9
  | .steer => 1 | .fwp => 4 | .kvx => 5 | .ten => 11 | .ftl => 5 | .nch => 3 | .ecc => 3 | .hlth => 8 | .dram => 4
  | .hrv => 7 | .acd => 12 | .acl => 2 | .aon => 7 | .psq => 4 | .i2c => 8 | .uart => 6 | .adc => 5 | .gpio => 32
  | .recog => 32 | .bat => 4 | .aqe => 6 | .meas => 2 | .usbh => 11 | .lmf => 4 | .hkp => 3

/-- The IRQ_FLAG bits of a block. -/
def flagMask (b : Block) : Word := BitVec.ofNat 32 (2 ^ flagWidth b - 1)

/-- A write of IRQ_EN: enabling a flag that is already 1 counts as a set (R81). -/
def writeIrqEn (s : State) (page : Nat) (w : Word) : State :=
  let old := s.reg page Off.IRQ_EN
  let s := setReg s page Off.IRQ_EN w
  let fresh := w &&& ~~~ old &&& s.reg page Off.IRQ_FLAG
  releasePins (if fresh = 0 then s else setFlags s page fresh) page

/-- A write of IRQ_ROUTE: a delivery owed to a destination that it removes is discarded (Table 3.19). -/
def writeIrqRoute (s : State) (page : Nat) (w : Word) : State :=
  let s := setReg s page Off.IRQ_ROUTE w
  let s := [0, 1, 2, 3].foldl (fun s d =>
    if w.bit d then s else setHoldoff s page d { s.holdoff page d with owed := false, first := none }) s
  releasePins s page

/-! ## PAGE_CTRL: EN and soft reset (R78 to R80) -/

/-- Pages on which EN is fixed at 1 (R79, R80 and the block chapters). -/
def enFixed (b : Block) : Bool :=
  match b with
  | .sys | .clk | .pwr | .rst | .time | .sec | .tat | .kvx | .steer | .aon | .gpio | .nch | .dram | .ecc | .hlth | .hrv
  | .hkp => true
  | _ => false

/-- Port 3 reports the LMF disconnected: it takes no transactions and holds no session (R468, Table 3.20). -/
def lmfGone (s : State) : State :=
  closeSession (onUsb s fun u =>
    { u with
      up := if u.up = .configured then .address else u.up
      lmfAddr := 0, rwakeLmf := false, inQueue := [], ep2 := [], ackOwed := false, ep0 := none })

/-- What follows a change of PAGE_CTRL EN (Table 3.20 and the block chapters). -/
def enChanged (s : State) (b : Block) (inst page : Nat) (now : Bool) : State :=
  match b with
  | .mac => if now then s else macDisable s inst
  | .fwp => if now then s else abortOps (fun _ => true) s
  | .acd => if now then acdOn s else acdOff s
  | .acl => if now then s else aclOff s inst
  | .psq => if now then psqOn s else psqOff s
  | .i2c => if now then s else busPageOff s page
  | .uart => if now then uartOn s inst else uartDeaf (busPageOff s page) inst
  | .recog => if now then recResume s else s
  | .aqe => if now then s else endRun s
  | .usbh => if now then usbAttach s else usbDetach s
  | .lmf => if now then s else lmfGone s
  | _ => s

/-- The bits that a soft reset of `page` keeps: the registers R78 names, journaled fields, on TIME those of R57, and the kept
fields that only the AON power-on reset returns to their reset values (R118, R492 to R494; DEDUCED, log 115). -/
def softMask (s : State) (page a : Nat) : Word :=
  let off := offOf a
  if pageOf a ≠ page then 0xFFFFFFFF
  else if off = Off.PAGE_OWNER ∨ off = Off.PAGE_CTRL ∨ off = Off.IRQ_EN ∨ off = Off.IRQ_ROUTE then 0xFFFFFFFF
  else if page = Pg.TIME ∧ (off = Off.TIME_FT_ADDEND ∨ off = Off.TIME_CORR_CFG) then 0xFFFFFFFF
  else if page = Pg.PWR ∨ page = Pg.USBH ∨ page = Pg.LMF ∨ page = Pg.HKP then islandMask s a
  else journalMask a

/-- What a block abandons at a page soft reset beyond its registers. -/
def softBlock (s : State) (b : Block) (inst : Nat) : State :=
  match b with
  | .clk => onClk s fun c => { c with freeNs := 0 }
  | .time => timeSoftReset s
  | .tat => tatSoftReset s
  | .evf => evfSoftReset s
  | .sec => secSoftReset s
  | .mac => onPort s inst fun p => { p with tsFifo := [] }
  | .fwp => { s with fratra := { s.fratra with peak := 0 } }
  | .aon => onHub s fun h => { h with cmp := [], cmpStaged := [] }
  | .psq => psqSoftReset s
  | .i2c => i2cSoftReset s inst
  | .uart => uartSoftReset s inst
  | .adc => adcSoftReset s
  | .gpio => gpioSoftReset s
  | .recog => onHub s fun h => { h with recogs := [] }
  | .bat => onHub s fun h => { h with streams := [] }
  | .aqe => aqeSoftReset s
  | _ => s

/-- A page soft reset (R78). The end of the command sets the flag of a level-sourced condition that still holds (R75). A TAT
reset may begin a pause, as REQUIRE_SYNC returns to 1 (R53). -/
def softReset (s : State) (b : Block) (inst page : Nat) : State :=
  if s.inReset.contains page then s
  else
    let s := softBlock s b inst
    let s := keepCtrs (fun p => p ≠ page || p = Pg.HRV) (keepRegs (softMask s page) s)
    let s := { s with shadows := s.shadows.filter fun e => pageOf (e.1 % 0x1000000) ≠ page
                      inReset := setAdd s.inReset page }
    let s := releasePins (setReg s page Off.IRQ_FLAG 0) page
    if b = .tat then tatNote s else s

/-- A page soft reset completes (R78). -/
def softResetDone (s : State) (page : Nat) : State := { s with inReset := setDel s.inReset page }

/-- A served write of PAGE_CTRL: EN, then the soft reset. -/
def writePageCtrl (s : State) (b : Block) (inst page : Nat) (w : Word) : State :=
  let was := s.en page
  let now := w.bit 0
  let s := setBitOf s page Off.PAGE_CTRL 0 now
  let s := if was = now then s else enChanged s b inst page now
  if w.bit 1 then softReset s b inst page else s

/-! ## Tenant pages (R211 to R218, R224, R228, R230, R232) -/

/-- The provisioning registers of a TEN page (Table 8.5). -/
def provisioning (inst off : Nat) : Bool :=
  (decide (0x100 ≤ off) && decide (off < 0x118)) || off = Off.TEN_TEN_CMD ||
    (inst = 0 && decide (0x300 ≤ off) && decide (off < 0x310))

/-- Another active tenant holds the VID (R215). -/
def dupVid (s : State) (n vid : Nat) : Bool :=
  (List.range 64).any fun m => decide (m ≠ n) && s.tenActive m && decide (s.tenVid m = vid)

/-- The sum of the active quotas exceeds the usable capacity (R217). -/
def quotaOver (s : State) : Bool := decide (usable s < quotaSum s)

/-- The page code of a TEN write, 0 when it is allowed; `v` is what the register would hold. -/
def tenCheck (s : State) (n off : Nat) (old v : Word) : Nat :=
  let t := setReg s (Pg.TEN n) off v
  if off = Off.TEN_TEN_CFG then
    let starts := v.bit 0 && !old.bit 0
    if n = 0 ∧ v.fld 5 0 ≠ 7 then 0x83
    else if n ≠ 0 ∧ v.fld 2 1 = 3 then 0x83
    else if v.bit 0 ≠ old.bit 0 ∧ (s.ten n).purgeBusy then 0x07
    else if v.bit 7 ≠ old.bit 7 ∧ (s.ten n).keys.isEmpty = false then 0x05
    else if starts ∧ (s.tenVid n = 0 ∨ 4094 < s.tenVid n) then 0x83
    else if starts ∧ dupVid s n (s.tenVid n) then 0x02
    else if starts ∧ quotaOver t then 0x03
    else 0
  else if off = Off.TEN_TEN_BIND then
    let vid := v.fld 11 0
    if s.tenActive n ∧ (vid = 0 ∨ 4094 < vid) then 0x83
    else if vid ≠ 0 ∧ dupVid s n vid then 0x02
    else 0
  else if off = Off.TEN_CAP_QUOTA then if s.tenActive n ∧ quotaOver t then 0x03 else 0
  else if off = Off.TEN_OPTAG_QUOTA then if v.fld 16 0 < s.fld (Pg.TEN n) Off.TEN_OPTAG_RSV 16 0 then 0x83 else 0
  else if off = Off.TEN_OPTAG_RSV then
    if s.fld (Pg.TEN n) Off.TEN_OPTAG_QUOTA 16 0 < v.fld 16 0 then 0x83
    else if 65536 < sumBy (fun m => t.fld (Pg.TEN m) Off.TEN_OPTAG_RSV 16 0) (List.range 64) then 0x04
    else 0
  else if off = Off.TEN_TEN_CMD then
    if v.bit 0 ∧ n = 0 then 0x08
    else if (v.bit 0 || v.bit 1) ∧ (s.ten n).purgeBusy then 0x07
    else if v.bit 1 ∧ s.tenActive n then 0x06
    else 0
  else 0

/-- The register row at an offset of a page, with its index. NOTE_W stands on TEN00 only: its offsets are reserved on the other
tenant pages (Table 8.2, R4). -/
def rowOf (b : Block) (inst off : Nat) : Option (RegRow × Nat) :=
  if b = .ten ∧ inst ≠ 0 ∧ 0x300 ≤ off ∧ off < 0x310 then none else rowAt b off


/-- The tenant's token balances as they stand under the old rate, before TOP_CAP changes (R224). -/
def anchorTokens (old s : State) (n : Nat) : State :=
  onTen s n fun t =>
    { t with tokens := [0, 1, 2, 3].foldl (fun m k => storeInsert m k (old.tokensOf n k, old.fratra.coreUs)) t.tokens }

/-- A served write of TEN_CFG (R214, R224, R230, R340). -/
def tenCfgWritten (s : State) (n : Nat) (old v : Word) : State :=
  let s := activeChanged s n old v
  let s := if old.fld 15 8 = v.fld 15 8 ∧ old.fld 2 1 = v.fld 2 1 then s else clearDeficits s n
  let s := if v.fld 2 1 = 0 ∧ old.fld 2 1 ≠ 0 then onTen s n fun t => { t with tokens := [] } else s
  leadChanged (governed s n) n old

/-- What a served write of a TEN register does beyond storing it. -/
def tenWritten (before s : State) (n off : Nat) (old v : Word) : State :=
  if off = Off.TEN_TEN_CFG then newlyDegraded before (tenCfgWritten s n old v)
  else if off = Off.TEN_TOP_CAP then clearDeficits (anchorTokens before s n) n
  else if off = Off.TEN_TEN_CMD then
    let s := if v.bit 0 then startTenantReset s n else s
    if v.bit 1 then startPurge s n else s
  else if 0x300 ≤ off ∧ off < 0x310 then (List.range 64).foldl clearDeficits s
  else s

/-! ## What a page refuses, and what a write does (R65 step 8) -/

/-- HRV writes (Table 11.7). -/
def hrvCheck (s : State) (off : Nat) (v : Word) : Nat :=
  if off = Off.HRV_HRV_BUDGET then if areaMib s / 2 < v.fld 11 0 then 0x01 else 0
  else if off = Off.HRV_BANK_CFG2 then
    if v.fld 31 16 = 0 ∨ (100 ≤ v.fld 31 16 ∧ v.fld 31 16 ≤ 10000) then 0 else 0x83
  else if off = Off.HRV_BANK_CFG3 ∨ off = Off.HRV_BANK_CHK then
    let t := setReg s Pg.HRV off v
    if t.fld Pg.HRV Off.HRV_BANK_CFG3 31 16 ≠ 0 ∧
        t.fld Pg.HRV Off.HRV_BANK_CHK 31 16 ≤ t.fld Pg.HRV Off.HRV_BANK_CHK 15 0 then 0x02 else 0
  else 0

/-- PWR_CMD PARK (R112). -/
def parkCheck (s : State) (v : Word) : Nat :=
  if !v.bit 0 then 0 else if !s.inRun then 0x01 else if s.pwr.settle.isSome then 0x02 else 0

/-- The code with which a page refuses a value, 0 when it takes it. `v` holds the writable bits as written and the others
as they stand. -/
def pageCheck (s : State) (r : Req) (b : Block) (inst page off : Nat) (old v : Word) : Nat :=
  match b with
  | .pwr => if off = Off.PWR_PWR_CMD then parkCheck s v else 0
  | .time => if timeBad off v then 0x83 else 0
  | .tat => tatCheck s (reqTenant r) (reqSec s r) off v
  | .evf => evfCheck s (reqTenant r) off v
  | .sec => secCheck s r.path off v
  | .mac => macCheck s inst off old v
  | .steer => steerCheck s off v
  | .kvx => if off = Off.KVX_INC_CFG ∧ v.bit 0 ∧ v.fld 13 8 = 0 then 0x01 else 0
  | .ten => tenCheck s inst off old v
  | .ftl => if off = Off.FTL_GLEAN_CFG then gleanCfgCheck v else if off = Off.FTL_SPARE_CFG then spareCheck s v else 0
  | .nch => if off = Off.NCH_NCH_CMD then retrainCheck s inst v else 0
  | .hlth =>
    if off = Off.HLTH_LUN_CMD ∧ v.bit 12 then lunCmdCheck s v
    else if off = Off.HLTH_RATED_PE ∧ v.fld 16 0 ≠ 0 ∧ (v.fld 16 0 < 100 ∨ 100000 < v.fld 16 0) then 0x83
    else 0
  | .hrv => hrvCheck s off v
  | .acd => acdCheck s off v
  | .psq => psqCheck s off v
  | .i2c => i2cCheck s page off v
  | .uart => uartCheck off v
  | .adc => adcCheck off v
  | .recog => recCheck s off v
  | .bat => batCheck s off v
  | .aqe => aqeCheck s off old v
  | .meas => measCheck off v
  | .sys | .clk | .rst | .fwp | .ecc | .dram | .acl | .aon | .gpio | .usbh | .lmf | .hkp => 0

/-- LMF_CMD SEQ_RESET (R487, R489): the sequence numbers return to 0, the bulk buffer and the IN queue are discarded. -/
def lmfSeqReset (s : State) : State :=
  onUsb s fun u => { u with outExp := 0, inNext := 0, lastTaken := 0xFFFF, nseq := 0, bulk := [], inQueue := []
                            ackOwed := false }

/-- Clearing DNn_EN removes the port's power and reports it disconnected (R492). -/
def dnDisabled (s : State) (old v : Word) : State :=
  [0, 1].foldl (fun s n =>
    if old.bit (1 + n) && !v.bit (1 + n) then
      onUsb s fun u => { u with ports := storePut u.ports n {} { ocN := (storeLook u.ports n {}).ocN } }
    else s) s

/-- What a served write of a MAC register does: the HKP loads the mode's calibrated latencies (R143; DESIGN CHOICE, log 122:
with the write of the MODE), a change of FC_MODE makes what is in XOFF due anew (R141), and a change of PORT_MAC is told to
the twin. -/
def macWritten (s : State) (k off : Nat) (old v : Word) : State :=
  if off = Off.MAC_PORT_CFG ∧ old.fld 3 0 ≠ v.fld 3 0 ∧ v.fld 3 0 ≠ 0 ∧ s.pwr.image then
    setReg s (Pg.MAC k) Off.MAC_PORT_LAT (Config.portLat k (v.fld 3 0))
  else if off = Off.MAC_FC_CFG ∧ old.fld 1 0 ≠ v.fld 1 0 then
    startTx (onPort s k fun p => { p with due := xoffNow s k, told := 0 }) k
  else if (off = Off.MAC_PORT_MAC_LO ∨ off = Off.MAC_PORT_MAC_HI) ∧ old ≠ v ∧
      (s.acd.pair = .paired ∨ s.acd.pair = .catchup) then tell s (portMacsNow s)
  else s

/-- What a served write of a block's own register does beyond storing it: `before` is the machine before the write. -/
def blockWritten (before s : State) (r : Req) (b : Block) (inst off : Nat) (old v : Word) : State :=
  match b with
  | .pwr => if off = Off.PWR_PWR_CMD ∧ v.bit 0 then onSettle (startSettle false s) fun t => { t with byPwr := true } else s
  | .rst =>
    if off = Off.RST_RST_CMD then
      let s := if v.bit 8 then wdtKick r.path s else s
      let began := !(s.pwr.settle.map Settle.warm).getD false
      if v.bit 0 then onSettle (warmCause 0x10 s) fun t => { t with byRst := t.byRst || began } else s
    else s
  | .time => if off = Off.TIME_FT_CMD ∧ r.path ≠ .tat then ftCommand s v else s
  | .tat =>
    if off = Off.TAT_TAT_CMD then tatCommand s (reqTenant r) (reqSec s r) v
    else if off = Off.TAT_TAT_CFG then tatNote s
    else s
  | .evf => if 0x400 ≤ off ∧ off < 0xA00 ∧ off % 32 = 0x18 ∧ v.bit 0 then fireChannel s ((off - 0x400) / 32) false else s
  | .sec => secApply s off v
  | .mac => macWritten s inst off old v
  | .steer => if off = Off.STEER_CFG_CMD ∧ v.bit 0 then startSave s else s
  | .ten => tenWritten before s inst off old v
  | .ftl =>
    if off = Off.FTL_GLEAN_CFG then gleanCfgApply s else if off = Off.FTL_SPARE_CFG then capUpdate s else s
  | .nch => if off = Off.NCH_NCH_CMD ∧ v.bit 0 then setChan s inst fun c => { c with training := true } else s
  | .hlth => if off = Off.HLTH_LUN_CMD then lunCmdApply v s else s
  | .hrv => bankJudge s
  | .acd =>
    if off = Off.ACD_ACD_CMD then acdCommand v s else if off = Off.ACD_ACD_CFG then newlyDegraded before s else s
  | .acl => if off = Off.ACL_LANE_CFG ∧ v.bit 0 ∧ !old.bit 0 then aclOff s inst else s
  | .aon =>
    if 0x120 ≤ off ∧ off < 0x160 ∧ off % 16 = 0 then loadCmp s ((off - 0x120) / 16) v
    else if 0x120 ≤ off ∧ off < 0x160 ∧ off % 16 = 4 then stageCmp s ((off - 0x120) / 16) v
    else if off = Off.AON_HOST_WAKE_CMD ∧ v.bit 0 then onHub s fun h => { h with wakeHost := false }
    else s
  | .i2c => if off = Off.I2C_I2C_CMD ∧ v.bit 0 then clearStuck s inst else s
  | .uart =>
    if off = Off.UART_UART_CMD then (if v.bit 0 then emptyFifo s inst else s)
    else uartWritten s inst off (decide (old ≠ v))
  | .gpio => if off = Off.GPIO_RAIL_CTRL then railWritten s else gpioWritten s off old
  | .recog => recWritten s off v
  | .bat => batWritten s off
  | .aqe =>
    if off = Off.AQE_AQE_CMD then aqeCmdApply v s
    else if 0x120 ≤ off ∧ off < 0x130 then dchWritten s
    else if off = Off.AQE_SEG_CMD ∧ v.bit 0 then segFree s
    else s
  | .usbh => if off = Off.USBH_USBH_CFG then dnDisabled s old v else s
  | .lmf => if off = Off.LMF_LMF_CMD ∧ v.bit 0 then lmfSeqReset s else s
  | .adc => adcWritten s off old v
  | .sys | .clk | .fwp | .kvx | .ecc | .dram | .psq | .meas | .hkp => s

/-! ## Writes (R65, R66, R72) -/

/-- The owner and the SEC bit that steps 5 and 6 and R67 judge by: the page's, or those of an event-fabric channel for
its registers (R452). -/
def judgeOwner (s : State) (b : Block) (page off : Nat) : Nat × Bool :=
  match b, chanOf off with
  | .evf, some n => ((s.chCfg n).fld 21 16, (s.chCfg n).bit 22)
  | _, _ => (s.fld page Off.PAGE_OWNER 5 0, s.bit page Off.PAGE_OWNER 8)

/-- The writes of R88 that the LMF path makes with identity TC0 and attribute 0. -/
def openingWrite (s : State) (r : Req) (b : Block) (off : Nat) (w : Word) : Bool :=
  b = .sec && r.path = .lmf && reqTenant r = 0 && !reqSec s r &&
    ((decide (0x190 ≤ off) && decide (off < 0x1A0)) || (off = Off.SEC_SESS_CTRL && w.bit 0 && !w.bit 1))

/-- Steps 2 to 7 of Table 3.11, and R211: the code, 0 when they pass. -/
def admitWrite (s : State) (r : Req) (b : Block) (inst page off : Nat) (w : Word) : Nat :=
  let t := reqTenant r
  let sec := reqSec s r
  if off = Off.PAGE_OWNER then
    if t ≠ 0 then 0x86
    else if s.bit page Off.PAGE_OWNER 15 then 0x82
    else if s.bit page Off.PAGE_OWNER 8 && !sec then 0x81
    else 0
  else
    let o := judgeOwner s b page off
    let opening := openingWrite s r b off w
    if t ≠ o.1 ∧ !(t = 0 && sec) then 0x80
    else if o.2 && !sec && !opening then 0x81
    else if b = .acd && acdNeedsSec off w && !(t = 0 && sec) then 0x81
    else if s.inReset.contains page ∧ off ≠ Off.PAGE_CTRL then 0x87
    else if b = .ten && provisioning inst off && decide (t ≠ 0) then 0x01
    else 0

/-- The bits of a register that software writes. -/
def writeMask (row : RegRow) : Word := accMask .rw row ||| accMask .wo row ||| accMask .sc row

/-- Step 8 of Table 3.11: the code, 0 when every field value is allowed. -/
def valueCode (s : State) (r : Req) (b : Block) (inst page off : Nat) (w : Word) : Nat :=
  if off = Off.PAGE_OWNER then (if b = .sec ∧ w &&& 0x13F ≠ 0x100 then 0x83 else 0)
  else if off = Off.PAGE_CTRL then (if enFixed b ∧ !w.bit 0 then 0x83 else 0)
  else
    match rowOf b inst off with
    | none => 0
    | some (row, _) =>
      let old := s.reg page off
      let m := writeMask row
      let code := pageCheck s r b inst page off old ((old &&& ~~~ m) ||| (w &&& m))
      if code ≠ 0 then code
      else if (openingWrite s r b off w && off = Off.SEC_SESS_CTRL) || fieldsInRange row w then 0
      else 0x83

/-- What SESS_CTRL holds after a write: an opening write without the attribute leaves IDLE_S (R88). -/
def storedValue (s : State) (r : Req) (b : Block) (page off : Nat) (row : RegRow) (w : Word) : Word :=
  let old := s.reg page off
  let m := accMask .rw row
  if openingWrite s r b off w && off = Off.SEC_SESS_CTRL then old
  else if page = Pg.GPIO ∧ 0x320 ≤ off ∧ off < 0x340 then w &&& pullMask ((off % 16) / 4)
  else (old &&& ~~~ m) ||| (w &&& m)

/-- A write that Table 3.11 admits takes effect (R66, R72). -/
def applyWrite (s : State) (r : Req) (b : Block) (inst page off : Nat) (w : Word) : State :=
  if off = Off.PAGE_OWNER then setReg s page off ((w &&& 0x813F) ||| (s.reg page off &&& 0x8000))
  else if off = Off.PAGE_CTRL then writePageCtrl s b inst page w
  else if off = Off.IRQ_FLAG then clearFlags s page (w &&& flagMask b)
  else if off = Off.IRQ_EN then writeIrqEn s page (w &&& flagMask b)
  else if off = Off.IRQ_FORCE then
    (if w &&& flagMask b = 0 then s else setFlags s page (w &&& flagMask b))
  else if off = Off.IRQ_ROUTE then writeIrqRoute s page (w &&& 0x03FF000F)
  else
    match rowOf b inst off with
    | none => s
    | some (row, _) =>
      let old := s.reg page off
      let m := writeMask row
      let t := setReg s page off (storedValue s r b page off row w)
      blockWritten s t r b inst off old ((old &&& ~~~ m) ||| (w &&& m))

/-- One write through the window on a path that carries accesses (R65, R68): judged, recorded where it is rejected, and
applied. A write of FT_CMD by a table entry is applied at its cycle's boundary, by its maker. -/
def writeJudged (s : State) (r : Req) (a : Nat) (w : Word) : State :=
  let page := pageOf a
  let off := offOf a
  if pathCode s r page ≠ 0 then rejectAcc s r page off (pathCode s r page) false
  else
    match blockOf page with
    | none => noPage s r page off false
    | some b =>
      let inst := page - blockPage b
      let code := admitWrite s r b inst page off w
      if code ≠ 0 then rejectAcc s r page off code false
      else
        let code := valueCode s r b inst page off w
        if code ≠ 0 then rejectAcc (if b = .sec then staleNonce s off w else s) r page off code false
        else answerAcc (applyWrite s r b inst page off w) r.path 0 0

/-- The address is that of TIME FT_CMD. -/
def isFtCmd (a : Nat) : Bool := pageOf a = Pg.TIME && offOf a = Off.TIME_FT_CMD

/-- The code and the value of a path's latest access. -/
def lastAnswer (s : State) (p : Path) : AccResult := storeLook s.results (pathNum p) {}

/-- One write through the window, where the path carries accesses in the present power state (Table 3.10). -/
def regWriteAcc (s : State) (r : Req) (a : Nat) (w : Word) : State :=
  if !pathServed s r.path then s
  else
    let t := writeJudged s r a w
    if r.path = .tat ∧ isFtCmd a ∧ (lastAnswer t .tat).code = 0 then ftApply t (ftCmdOf s w) else t

/-! ## Reads (R67, R76, R29) -/

/-- R67: the read is served. -/
def readAllowed (s : State) (r : Req) (b : Block) (page off : Nat) : Bool :=
  reqTenant r = (judgeOwner s b page off).1 || reqTenant r = 0 || reqSec s r || decide (off ≤ 0x010)

/-- The read of a pair's low word, which latches the high word (at `off + 4`) into the path's shadow. -/
def latchHi (s : State) (p : Path) (page off v : Nat) : Word × State :=
  (lo32 v, setShadow s p page (off + 4) (hi32 v))

/-- The health report's words (R293): the read of word 0 latches them all into the path's shadow. -/
def latchReport (s : State) (p : Path) : Word × State :=
  let bs := healthReport s
  let word (k : Nat) : Word := BitVec.ofNat 32 (beNat ((bs.drop (4 * k)).take 4))
  (word 0, (List.range 71).foldl (fun s k => setShadow s p Pg.HLTH (0x404 + 4 * k) (word (k + 1))) s)

/-- A read of TX_TS_NS (R144): the head entry of the FIFO goes to the path's shadow; an empty FIFO shows VALID 0. -/
def popTxTs (s : State) (p : Path) (k : Nat) : Word × State :=
  let pg := Pg.MAC k
  let put (s : State) (lo info seq : Word) : State :=
    setShadow (setShadow (setShadow s p pg Off.MAC_TX_TS_SEC_LO lo) p pg Off.MAC_TX_TS_INFO info) p pg Off.MAC_TX_TS_SEQ seq
  match (s.port k).tsFifo with
  | [] => (0, put s 0 0 0)
  | t :: rest =>
    let sec := t.ns / 1000000000
    let info := Word.place 15 0 (sec / 2 ^ 32) ||| Word.place 19 16 t.msgType ||| flagBit 31 true
    let s := onPort s k fun x => { x with tsFifo := rest }
    (lo32 (t.ns % 1000000000), put s (lo32 sec) info (Word.place 15 0 t.seqId ||| Word.place 23 16 t.domain))

/-- INC_END (Table 7.9): the read of its nanoseconds latches its seconds. -/
def latchIncEnd (s : State) (p : Path) : Word × State :=
  let ns := s.fratra.incident.endNs
  let sec := ns / 1000000000
  (lo32 (ns % 1000000000), setShadow (setShadow s p Pg.KVX Off.KVX_INC_END_SEC_LO (lo32 sec)) p Pg.KVX
    Off.KVX_INC_END_SEC_HI (hi32 sec))

/-- Offsets whose read returns the path's shadow of an earlier latching read. -/
def fromShadow (b : Block) (off : Nat) : Bool :=
  match b with
  | .time =>
    off = Off.TIME_FT_RD_SEC_LO || off = Off.TIME_FT_RD_SEC_HI || off = Off.TIME_TSYNC_CAP_SEC_LO ||
      off = Off.TIME_TSYNC_CAP_SEC_HI || decide (0x800 ≤ off ∧ off % 32 ≠ 0)
  | .evf => decide (0x200 ≤ off ∧ off < 0x280 ∧ off % 16 ≠ 0)
  | .sec => decide (0x184 ≤ off ∧ off < 0x190)
  | .mac => off = Off.MAC_TX_TS_SEC_LO || off = Off.MAC_TX_TS_INFO || off = Off.MAC_TX_TS_SEQ
  | .kvx => off = Off.KVX_KEYS_HI || off = Off.KVX_INC_END_SEC_LO || off = Off.KVX_INC_END_SEC_HI
  | .ten => off = Off.TEN_KEYS_HI || off = Off.TEN_USED_HI || off = Off.TEN_VER_HI
  | .ftl => off = Off.FTL_USABLE_HI
  | .hlth => off = Off.HLTH_HEALING_HI || off = Off.HLTH_LOST_HI || decide (0x404 ≤ off)
  | .dram => off = Off.DRAM_SLOTS_FREE_HI
  | .hrv => off = Off.HRV_ESN_HI
  | .aon => off = Off.AON_TICK_HI
  | _ => false

/-- Where the path's shadow of an offset is kept: the correlation ring has one shadow for all its entries (R41). -/
def shadowOff (b : Block) (off : Nat) : Nat := if b = .time ∧ 0x800 ≤ off then 0x800 + off % 32 else off

/-- Registers whose read latches or changes more than a counter: the value and the machine after, or none. DESIGN CHOICE
(log 112): the read of OPTAGS_PEAK restarts the peak at the op tags then in use. -/
def latchRead (s : State) (p : Path) (b : Block) (inst page off : Nat) : Option (Word × State) :=
  match latchPairValue s b inst off with
  | some v => some (latchHi s p page off v)
  | none =>
    match b with
    | .time =>
      if off = Off.TIME_FT_RD_NS then some (latchTime s p off s.ft.ns (ftFrac s))
      else if off = Off.TIME_TSYNC_CAP_NS then some (latchTime s p off s.ft.cap 0)
      else if 0x800 ≤ off ∧ off % 32 = 0 then some (latchPair s p ((off - 0x800) / 32))
      else none
    | .evf =>
      if 0x200 ≤ off ∧ off < 0x240 ∧ off % 16 = 0 then some (readCapture s p false ((off - 0x200) / 16))
      else if 0x240 ≤ off ∧ off < 0x280 ∧ off % 16 = 0 then some (readCapture s p true ((off - 0x240) / 16))
      else none
    | .sec => if off = Off.SEC_SESS_NONCE 0 then some (drawNonce s p) else none
    | .mac => if off = Off.MAC_TX_TS_NS then some (popTxTs s p inst) else none
    | .fwp =>
      if off = Off.FWP_OPTAGS_PEAK then
        some (BitVec.ofNat 32 s.fratra.peak, { s with fratra := { s.fratra with peak := opTagsAll s } })
      else none
    | .kvx => if off = Off.KVX_INC_END_NS then some (latchIncEnd s p) else none
    | .hlth => if off = Off.HLTH_REPORT 0 then some (latchReport s p) else none
    | _ => none

/-- What a served read returns, and the machine after it. -/
def readValue (s : State) (p : Path) (b : Block) (inst page off : Nat) : Word × State :=
  if off = Off.PAGE_STAT then (pageStat s page, s)
  else if off = Off.PAGE_CTRL then (s.reg page off ||| flagBit 1 (s.inReset.contains page), s)
  else if off = Off.ERR_CODE then (s.reg page off, setReg s page off 0)
  else
    match counterAt b off with
    | some lo =>
      if off = lo then
        let r := latchHi s p page off (s.ctr page off)
        (r.1, setCtr r.2 page off 0)
      else (s.shadow p page off, s)
    | none =>
      match rowOf b inst off with
      | none => (0, s)
      | some (row, _) =>
        match latchRead s p b inst page off with
        | some r => r
        | none =>
          if fromShadow b off then (s.shadow p page (shadowOff b off), s)
          else (((blockShow s b inst off).getD (s.reg page off)) &&& ~~~ (accMask .wo row), s)

/-- One read through the window (R67, R68): judged, recorded where it is rejected, and served. -/
def regReadAcc (s : State) (r : Req) (a : Nat) : State :=
  let page := pageOf a
  let off := offOf a
  if !pathServed s r.path then s
  else if pathCode s r page ≠ 0 then rejectAcc s r page off (pathCode s r page) true
  else
    match blockOf page with
    | none => noPage s r page off true
    | some b =>
      if !readAllowed s r b page off then rejectAcc s r page off 0x85 true
      else if b = .sec ∧ off = Off.SEC_SESS_NONCE 0 ∧ s.sec.lockout then rejectAcc (zeroNonce s r.path) r page off 0x05 true
      else
        let v := readValue s r.path b (page - blockPage b) page off
        answerAcc v.2 r.path 0 v.1

end Sys2Proof.Machine
end

