-- ==== Sys2Proof/Machine/Access.lean ====
section
/-! DEFINITION. Machine/Access.lean: the commands that are accesses through the register window, each to its own register,
and the Ethernet port commands. A register command carries who makes the access, by which path, and the whole value written. -/

namespace Sys2Proof.Machine

/-- A frame ends at a port; what it hands to the HKP reaches the servo (R34). -/
def rxEnds (s : State) (k : Nat) (rest : List Byte) (codeErr : Bool) : State :=
  if (s.port k).rx.isSome then servoTakes (doRxFrameEnd s k rest codeErr) k else s

/-- A command that names one of `n` units of a kind: nothing happens where there is no such unit. -/
def onUnit (n k : Nat) (f : State → State) (s : State) : State := if k < n then f s else s

/-- A command of an Ethernet port: there are four. -/
def onPortCmd (port : Nat) (f : Nat → State → State) (s : State) : State := onUnit 4 port (f port) s

/-! ## Power and reset (R112, R100, R117) -/

/-- A write of PWR_CMD. -/
def execPark (by_ : Req) (value : Word) (s : State) : Host.Outcome State Fault Refusal :=
  done (regWriteAcc s by_ (addr Pg.PWR Off.PWR_PWR_CMD) value)
/-- A write of RST_CMD. -/
def execWarm (by_ : Req) (value : Word) (s : State) : Host.Outcome State Fault Refusal :=
  done (regWriteAcc s by_ (addr Pg.RST Off.RST_RST_CMD) value)
/-- A write of RST_CMD. -/
def execWdtKick (by_ : Req) (value : Word) (s : State) : Host.Outcome State Fault Refusal :=
  done (regWriteAcc s by_ (addr Pg.RST Off.RST_RST_CMD) value)

/-! ## Fleet Time and the Timed Action Table (R28 to R30, R41, R48, R50) -/

/-- A write of FT_CMD. -/
def execStep (by_ : Req) (value : Word) (s : State) : Host.Outcome State Fault Refusal :=
  done (regWriteAcc s by_ (addr Pg.TIME Off.TIME_FT_CMD) value)
/-- A write of FT_CMD. -/
def execSet (by_ : Req) (value : Word) (s : State) : Host.Outcome State Fault Refusal :=
  done (regWriteAcc s by_ (addr Pg.TIME Off.TIME_FT_CMD) value)
/-- A write of FT_CMD. -/
def execStateLoad (by_ : Req) (value : Word) (s : State) : Host.Outcome State Fault Refusal :=
  done (regWriteAcc s by_ (addr Pg.TIME Off.TIME_FT_CMD) value)
/-- A read of FT_RD_NS. -/
def execFtRdNs (by_ : Req) (s : State) : Host.Outcome State Fault Refusal :=
  done (regReadAcc s by_ (addr Pg.TIME Off.TIME_FT_RD_NS))
/-- A read of word 0 of a ring entry. -/
def execCorrRingRead (by_ : Req) (entry : Nat) (s : State) : Host.Outcome State Fault Refusal :=
  done (onUnit 64 entry (fun s => regReadAcc s by_ (addr Pg.TIME (Off.TIME_CORR_RING (8 * entry)))) s)
/-- A write of TAT_CMD. -/
def execRead (by_ : Req) (value : Word) (s : State) : Host.Outcome State Fault Refusal :=
  done (regWriteAcc s by_ (addr Pg.TAT Off.TAT_TAT_CMD) value)
/-- A write of TAT_CMD. -/
def execWrite (by_ : Req) (value : Word) (s : State) : Host.Outcome State Fault Refusal :=
  done (regWriteAcc s by_ (addr Pg.TAT Off.TAT_TAT_CMD) value)
/-- A write of TAT_CMD. -/
def execCancel (by_ : Req) (value : Word) (s : State) : Host.Outcome State Fault Refusal :=
  done (regWriteAcc s by_ (addr Pg.TAT Off.TAT_TAT_CMD) value)
/-- A write of TAT_CFG. -/
def execTatCfg (by_ : Req) (value : Word) (s : State) : Host.Outcome State Fault Refusal :=
  done (regWriteAcc s by_ (addr Pg.TAT Off.TAT_TAT_CFG) value)

/-! ## Registers at large (R65, R3, R76, R73, R61, R81, R66, R78, R80) -/

/-- A write of any register. -/
def execRegisterWrite (by_ : Req) (address : Nat) (value : Word) (s : State) : Host.Outcome State Fault Refusal :=
  done (regWriteAcc s by_ (address) value)
/-- A read of ERR_CODE. -/
def execErrCodeRead (by_ : Req) (page : Nat) (s : State) : Host.Outcome State Fault Refusal :=
  done (regReadAcc s by_ (addr page Off.ERR_CODE))
/-- A read of a counter. -/
def execCounterRead (by_ : Req) (address : Nat) (s : State) : Host.Outcome State Fault Refusal :=
  done (regReadAcc s by_ (address))
/-- A write of IRQ_FLAG. -/
def execIrqFlag (by_ : Req) (page : Nat) (value : Word) (s : State) : Host.Outcome State Fault Refusal :=
  done (regWriteAcc s by_ (addr page Off.IRQ_FLAG) value)
/-- A write of IRQ_FORCE. -/
def execIrqForce (by_ : Req) (page : Nat) (value : Word) (s : State) : Host.Outcome State Fault Refusal :=
  done (regWriteAcc s by_ (addr page Off.IRQ_FORCE) value)
/-- A write of IRQ_EN. -/
def execIrqEn (by_ : Req) (page : Nat) (value : Word) (s : State) : Host.Outcome State Fault Refusal :=
  done (regWriteAcc s by_ (addr page Off.IRQ_EN) value)
/-- A hold-off timer expires. -/
def execCoalTimerExpire (page dest : Nat) (s : State) : Host.Outcome State Fault Refusal :=
  done (holdoffExpire s page dest)
/-- A write of PAGE_OWNER. -/
def execPageOwner (by_ : Req) (page : Nat) (value : Word) (s : State) : Host.Outcome State Fault Refusal :=
  done (regWriteAcc s by_ (addr page Off.PAGE_OWNER) value)
/-- A write of PAGE_CTRL. -/
def execSoftRst (by_ : Req) (page : Nat) (value : Word) (s : State) : Host.Outcome State Fault Refusal :=
  done (regWriteAcc s by_ (addr page Off.PAGE_CTRL) value)
/-- A page soft reset completes. -/
def execSoftRstDone (page : Nat) (s : State) : Host.Outcome State Fault Refusal :=
  done (softResetDone s page)
/-- A write of PAGE_CTRL. -/
def execPageCtrlEn (by_ : Req) (page : Nat) (value : Word) (s : State) : Host.Outcome State Fault Refusal :=
  done (regWriteAcc s by_ (addr page Off.PAGE_CTRL) value)

/-! ## SEC (R87 to R90) -/

/-- A write of KS_CMD. -/
def execLoad (by_ : Req) (value : Word) (s : State) : Host.Outcome State Fault Refusal :=
  done (regWriteAcc s by_ (addr Pg.SEC Off.SEC_KS_CMD) value)
/-- A write of KS_CMD. -/
def execGenerate (by_ : Req) (value : Word) (s : State) : Host.Outcome State Fault Refusal :=
  done (regWriteAcc s by_ (addr Pg.SEC Off.SEC_KS_CMD) value)
/-- A write of KS_CMD. -/
def execZeroize (by_ : Req) (value : Word) (s : State) : Host.Outcome State Fault Refusal :=
  done (regWriteAcc s by_ (addr Pg.SEC Off.SEC_KS_CMD) value)
/-- A write of KS_CMD. -/
def execCheck (by_ : Req) (value : Word) (s : State) : Host.Outcome State Fault Refusal :=
  done (regWriteAcc s by_ (addr Pg.SEC Off.SEC_KS_CMD) value)
/-- A write of KEY_REV_CMD. -/
def execGo (by_ : Req) (value : Word) (s : State) : Host.Outcome State Fault Refusal :=
  done (regWriteAcc s by_ (addr Pg.SEC Off.SEC_KEY_REV_CMD) value)
/-- A read of SESS_NONCE0. -/
def execSessNonceRead (by_ : Req) (s : State) : Host.Outcome State Fault Refusal :=
  done (regReadAcc s by_ (addr Pg.SEC (Off.SEC_SESS_NONCE 0)))
/-- A write of SESS_CTRL. -/
def execSessOpen (by_ : Req) (value : Word) (s : State) : Host.Outcome State Fault Refusal :=
  done (regWriteAcc s by_ (addr Pg.SEC Off.SEC_SESS_CTRL) value)
/-- A write of SESS_CTRL. -/
def execSessClose (by_ : Req) (value : Word) (s : State) : Host.Outcome State Fault Refusal :=
  done (regWriteAcc s by_ (addr Pg.SEC Off.SEC_SESS_CTRL) value)

/-! ## Ethernet ports (R121 to R148) -/

/-- A write of PORT_CFG. -/
def execPortCfg (by_ : Req) (port : Nat) (value : Word) (s : State) : Host.Outcome State Fault Refusal :=
  done (onUnit 4 port (fun s => regWriteAcc s by_ (addr (Pg.MAC port) Off.MAC_PORT_CFG) value) s)
/-- The PCS declares the link up. -/
def execLinkUp (port : Nat) (info : LinkInfo) (s : State) : Host.Outcome State Fault Refusal :=
  done (onPortCmd port (fun k s => doLinkUp s k info) s)
/-- The PCS declares the link down. -/
def execLinkDown (port : Nat) (fault : LinkFault) (received : List Byte) (s : State) : Host.Outcome State Fault Refusal :=
  done (onPortCmd port (fun k s => doLinkDown s k fault received) s)
/-- The head of a frame. -/
def execRxFrameStart (port : Nat) (head : List Byte) (s : State) : Host.Outcome State Fault Refusal :=
  done (onPortCmd port (fun k s => doRxFrameStart s k head) s)
/-- The end of a frame. -/
def execRxFrameEnd (port : Nat) (rest : List Byte) (line : LineReport) (s : State) : Host.Outcome State Fault Refusal :=
  done (onPortCmd port (fun k s => rxEnds (countFec s k line.fecCorr line.fecUncorr) k rest line.codeErr) s)
/-- A PAUSE frame. -/
def execPause (port time : Nat) (s : State) : Host.Outcome State Fault Refusal :=
  done (onPortCmd port (fun k s => doPause s k time) s)
/-- A PFC frame. -/
def execPfc (port : Nat) (classes : BitVec 8) (times : List Nat) (s : State) : Host.Outcome State Fault Refusal :=
  done (onPortCmd port (fun k s => doPfc s k classes times) s)
/-- A stop ends. -/
def execPauseExpire (port : Nat) (prio : Option Nat) (s : State) : Host.Outcome State Fault Refusal :=
  done (onPortCmd port (fun k s => doPauseExpire s k prio) s)
/-- An XOFF is sent again. -/
def execPauseRefresh (port : Nat) (s : State) : Host.Outcome State Fault Refusal :=
  done (onPortCmd port (fun k s => doPauseRefresh s k) s)
/-- A transmitted frame ends. -/
def execTxFrameDone (port : Nat) (offered : List TxOffer) (s : State) : Host.Outcome State Fault Refusal :=
  done (onPortCmd port (fun k s => doTxFrameDone s k offered) s)
/-- A read of TX_TS_NS. -/
def execTxTsNs (by_ : Req) (port : Nat) (s : State) : Host.Outcome State Fault Refusal :=
  done (onUnit 4 port (fun s => regReadAcc s by_ (addr (Pg.MAC port) Off.MAC_TX_TS_NS)) s)
/-- A write of CFG_CMD. -/
def execSave (by_ : Req) (value : Word) (s : State) : Host.Outcome State Fault Refusal :=
  done (regWriteAcc s by_ (addr Pg.STEER Off.STEER_CFG_CMD) value)
/-- The snapshot is in the journal pool, or cannot be journaled (R148, R243). -/
def snapshotSaved (journaled : Bool) (s : State) : State :=
  if journaled && s.snap.saving.isSome then journalPut (doSaveDone s journaled) .snapshot else doSaveDone s journaled
def execSaveDone (journaled : Bool) (s : State) : Host.Outcome State Fault Refusal := done (snapshotSaved journaled s)

/-! ## Tenants, media, Accord (R214, R215, R228, R232, R260, R239, R282, R331, R324, R353) -/

/-- A write of TEN_CFG. -/
def execTenCfg (by_ : Req) (tenant : Nat) (value : Word) (s : State) : Host.Outcome State Fault Refusal :=
  done (onUnit 64 tenant (fun s => regWriteAcc s by_ (addr (Pg.TEN tenant) Off.TEN_TEN_CFG) value) s)
/-- A write of TEN_BIND. -/
def execTenBind (by_ : Req) (tenant : Nat) (value : Word) (s : State) : Host.Outcome State Fault Refusal :=
  done (onUnit 64 tenant (fun s => regWriteAcc s by_ (addr (Pg.TEN tenant) Off.TEN_TEN_BIND) value) s)
/-- A write of TEN_CMD. -/
def execReset (by_ : Req) (tenant : Nat) (value : Word) (s : State) : Host.Outcome State Fault Refusal :=
  done (onUnit 64 tenant (fun s => regWriteAcc s by_ (addr (Pg.TEN tenant) Off.TEN_TEN_CMD) value) s)
/-- A write of TEN_CMD. -/
def execPurge (by_ : Req) (tenant : Nat) (value : Word) (s : State) : Host.Outcome State Fault Refusal :=
  done (onUnit 64 tenant (fun s => regWriteAcc s by_ (addr (Pg.TEN tenant) Off.TEN_TEN_CMD) value) s)
/-- A write of GLEAN_CFG. -/
def execGleanCfg (by_ : Req) (value : Word) (s : State) : Host.Outcome State Fault Refusal :=
  done (regWriteAcc s by_ (addr Pg.FTL Off.FTL_GLEAN_CFG) value)
/-- A write of NCH_CMD. -/
def execNchRetrain (by_ : Req) (chan : Nat) (value : Word) (s : State) : Host.Outcome State Fault Refusal :=
  done (onUnit 16 chan (fun s => regWriteAcc s by_ (addr (Pg.NCH chan) Off.NCH_NCH_CMD) value) s)
/-- A write of LUN_CMD. -/
def execLunCmd (by_ : Req) (value : Word) (s : State) : Host.Outcome State Fault Refusal :=
  done (regWriteAcc s by_ (addr Pg.HLTH Off.HLTH_LUN_CMD) value)
/-- A write of ACD_CMD. -/
def execAcdRetrain (by_ : Req) (value : Word) (s : State) : Host.Outcome State Fault Refusal :=
  done (regWriteAcc s by_ (addr Pg.ACD Off.ACD_ACD_CMD) value)
/-- A write of ACD_CMD. -/
def execWidthSet (by_ : Req) (value : Word) (s : State) : Host.Outcome State Fault Refusal :=
  done (regWriteAcc s by_ (addr Pg.ACD Off.ACD_ACD_CMD) value)
/-- A write of ACD_CMD. -/
def execAdopt (by_ : Req) (value : Word) (s : State) : Host.Outcome State Fault Refusal :=
  done (regWriteAcc s by_ (addr Pg.ACD Off.ACD_ACD_CMD) value)
/-- A write of ACD_CMD. -/
def execTakeover (by_ : Req) (value : Word) (s : State) : Host.Outcome State Fault Refusal :=
  done (regWriteAcc s by_ (addr Pg.ACD Off.ACD_ACD_CMD) value)
/-- A write of ACD_CMD. -/
def execForget (by_ : Req) (value : Word) (s : State) : Host.Outcome State Fault Refusal :=
  done (regWriteAcc s by_ (addr Pg.ACD Off.ACD_ACD_CMD) value)

/-! ## The AON island (R362, R364, R384, R401, R407, R425 to R427, R440, R453, R454, R461) -/

/-- A read of TICK_LO. -/
def execTickLo (by_ : Req) (s : State) : Host.Outcome State Fault Refusal :=
  done (regReadAcc s by_ (addr Pg.AON Off.AON_TICK_LO))
/-- A write of ALM_CMP_HIa. -/
def execAlmCmpHi (by_ : Req) (alarm : Nat) (value : Word) (s : State) : Host.Outcome State Fault Refusal :=
  done (onUnit 4 alarm (fun s => regWriteAcc s by_ (addr Pg.AON (Off.AON_ALM_CMP_HI alarm)) value) s)
/-- A write of ALM_CMP_LOa. -/
def execAlmCmpLo (by_ : Req) (alarm : Nat) (value : Word) (s : State) : Host.Outcome State Fault Refusal :=
  done (onUnit 4 alarm (fun s => regWriteAcc s by_ (addr Pg.AON (Off.AON_ALM_CMP_LO alarm)) value) s)
/-- A write of HOST_WAKE_CMD. -/
def execHostWakeRelease (by_ : Req) (value : Word) (s : State) : Host.Outcome State Fault Refusal :=
  done (regWriteAcc s by_ (addr Pg.AON Off.AON_HOST_WAKE_CMD) value)
/-- A write of I2C_CMD. -/
def execClrStuck (by_ : Req) (bus : Nat) (value : Word) (s : State) : Host.Outcome State Fault Refusal :=
  done (onUnit 2 bus (fun s => regWriteAcc s by_ (addr (Pg.I2C bus) Off.I2C_I2C_CMD) value) s)
/-- A write of RAIL_CTRL. -/
def execRailCtrl (by_ : Req) (value : Word) (s : State) : Host.Outcome State Fault Refusal :=
  done (regWriteAcc s by_ (addr Pg.GPIO Off.GPIO_RAIL_CTRL) value)
/-- A write of UART_CMD. -/
def execRxFlush (by_ : Req) (uart : Nat) (value : Word) (s : State) : Host.Outcome State Fault Refusal :=
  done (onUnit 4 uart (fun s => regWriteAcc s by_ (addr (Pg.UART uart) Off.UART_UART_CMD) value) s)
/-- A write of AQE_CMD. -/
def execArm (by_ : Req) (value : Word) (s : State) : Host.Outcome State Fault Refusal :=
  done (regWriteAcc s by_ (addr Pg.AQE Off.AQE_AQE_CMD) value)
/-- A write of AQE_CMD. -/
def execForce (by_ : Req) (value : Word) (s : State) : Host.Outcome State Fault Refusal :=
  done (regWriteAcc s by_ (addr Pg.AQE Off.AQE_AQE_CMD) value)
/-- A write of AQE_CMD. -/
def execStop (by_ : Req) (value : Word) (s : State) : Host.Outcome State Fault Refusal :=
  done (regWriteAcc s by_ (addr Pg.AQE Off.AQE_AQE_CMD) value)
/-- A write of SEG_CMD. -/
def execSegCmdFree (by_ : Req) (value : Word) (s : State) : Host.Outcome State Fault Refusal :=
  done (regWriteAcc s by_ (addr Pg.AQE Off.AQE_SEG_CMD) value)
/-- A write of CH_CFG. -/
def execChCfg (by_ : Req) (ch : Nat) (value : Word) (s : State) : Host.Outcome State Fault Refusal :=
  done (onUnit 48 ch (fun s => regWriteAcc s by_ (addr Pg.EVF (Off.EVF_CH_CFG ch)) value) s)
/-- A write of CH_FIRE. -/
def execFire (by_ : Req) (ch : Nat) (value : Word) (s : State) : Host.Outcome State Fault Refusal :=
  done (onUnit 48 ch (fun s => regWriteAcc s by_ (addr Pg.EVF (Off.EVF_CH_FIRE ch)) value) s)
/-- A read of FCAPk_NS. -/
def execFcapRead (by_ : Req) (unit : Nat) (s : State) : Host.Outcome State Fault Refusal :=
  done (onUnit 4 unit (fun s => regReadAcc s by_ (addr Pg.EVF (Off.EVF_FCAP_NS unit))) s)
/-- A read of ACAPk_LO. -/
def execAcapRead (by_ : Req) (unit : Nat) (s : State) : Host.Outcome State Fault Refusal :=
  done (onUnit 4 unit (fun s => regReadAcc s by_ (addr Pg.EVF (Off.EVF_ACAP_LO unit))) s)

/-! ## The LMF (R487) -/

/-- A write of LMF_CMD. -/
def execSeqReset (by_ : Req) (value : Word) (s : State) : Host.Outcome State Fault Refusal :=
  done (regWriteAcc s by_ (addr Pg.LMF Off.LMF_LMF_CMD) value)

end Sys2Proof.Machine
end

