-- ==== Sys2Proof/Machine/Fabric.lean ====
section
/-! DEFINITION. Machine/Fabric.lean: the consumers of the event fabric in their taking cycle (R448, R450, R457). -/

namespace Sys2Proof.Machine

/-- A consumer is busy (Table 16.2). -/
def consBusy (s : State) (c : Nat) : Bool :=
  if 8 ≤ c ∧ c ≤ 11 then s.bus.seqActive.contains (c - 8)
  else if c = 12 then runActive s
  else if c = 13 then !(recordWaits s && (s.aqe.prof.map Profile.trigSrc) = some 2)
  else if c = 32 then !s.inRun
  else if 33 ≤ c ∧ c ≤ 36 then !s.coreOn
  else false

/-- What an offer to a busy consumer also counts (Table 16.2). -/
def consRefuses (s : State) (c : Nat) : State :=
  if 8 ≤ c ∧ c ≤ 11 then setFlag (bump s Pg.ADC 0x050) Pg.ADC 4
  else if c = 12 then bump s Pg.AQE 0x068
  else if c = 13 ∧ runActive s then missTrigger s
  else s

/-- The effect of an event delivered to a consumer by channel `ch` (Table 16.2). -/
def consActs (s : State) (c ch : Nat) : State :=
  if c ≤ 7 then (if s.fld Pg.GPIO (Off.GPIO_GPO_SRC c) 1 0 = 2 then gpoPulse s c else s)
  else if c ≤ 11 then
    let cfg := seqCfg s (c - 8)
    if s.en Pg.ADC && cfg.bit 0 && cfg.bit 1 then startSeq s (c - 8) else s
  else if c = 12 then hardArm s (s.fld Pg.AQE Off.AQE_AQE_CFG 18 16) false
  else if c = 13 then startWaiting s 2 (s.hub.tick * 32)
  else if c = 14 then
    (if s.fld Pg.AQE Off.AQE_TOUT_CFG 1 0 = 3 then onAqe s fun a => { a with toutPulse := toutFrom s (s.hub.tick + 1) } else s)
  else if 16 ≤ c ∧ c ≤ 19 then captureAon s (c - 16) ch
  else if c = 32 then doIncidentEvent s
  else if 33 ≤ c ∧ c ≤ 36 then captureFt s (c - 33) ch
  else s

/-- The channels, in rising order, that have an offer on its way to the consumer, with those offers off the list. -/
def takeOffers (s : State) (c : Nat) (chs : List Nat) : List Nat × State :=
  (List.range 48).foldl (fun (r : List Nat × State) ch =>
    if chs.contains ch then
      match takeOffer (cycleNow s) r.2.evf.offers ch c with
      | some l => (r.1 ++ [ch], { r.2 with evf := { r.2.evf with offers := l } })
      | none => r
    else r) ([], s)

/-- OFFER_TAKEN (an offer is not taken before its taking cycle, log 137): of the offers that reach a consumer in one taking
cycle, that of the lowest channel is delivered unless the consumer is busy, and the others are ignored (R448). -/
def doOfferTaken (c : Nat) (chs : List Nat) (s : State) : State :=
  let r := takeOffers s c chs
  match r.1 with
  | [] => s
  | ch :: rest =>
    let s := r.2
    if consBusy s c then (ch :: rest).foldl (fun s x => consRefuses (ignoreOffer s x) c) s
    else rest.foldl ignoreOffer (consActs (deliverOffer s ch) c ch)

/-- The consumers that an offer reaches in the present cycle. -/
def offersDue (s : State) : List Nat :=
  (List.range 64).filter fun c => s.evf.offers.any fun o => decide (o.consumer = c) && decide (o.due ≤ cycleNow s)

/-- The offers whose taking cycle is the present one are taken, and those that their effects make in it, in `n` rounds at most:
a channel forms one event in a cycle. -/
def takeDue : Nat → State → State
  | 0, s => s
  | n + 1, s =>
    match offersDue s with
    | [] => s
    | l => takeDue n (overList (fun s c => doOfferTaken c (List.range 48) s) l s)

def execOfferTaken (consumer : Nat) (channels : List Nat) (s : State) : Host.Outcome State Fault Refusal :=
  done (doOfferTaken consumer channels s)

end Sys2Proof.Machine
end

