-- ==== Sys2Proof/Machine/TatFire.lean ====
section
/-! DEFINITION. Machine/TatFire.lean: the Timed Action Table as it evaluates: firing, actions, lateness, fire records, and
REG_WRITE actions that arrive in the AON island (R44 to R55). -/

namespace Sys2Proof.Machine

/-! ## Fire records (R55) -/

/-- Write one fire record into the ring, TAT_LAST and the TC0 event log. -/
def fireRecord (s : State) (r : FireRec) : State :=
  onTat s fun t =>
    let r := { r with seq := t.fireSeq }
    { t with ring := storeInsert t.ring t.ringNext r, ringNext := (t.ringNext + 1) % 64
             fireSeq := (t.fireSeq + 1) % 256, last := some r, eventLog := t.eventLog ++ [r] }

/-! ## Entries (R51, R52) -/

/-- The instants of an entry that have passed at Fleet Time `now`: 1 for a one-shot entry (R52). -/
def instantsPassed (e : TatEntry) (now : Nat) : Nat :=
  if e.periodMs = 0 then 1 else (now - e.t) / (e.periodMs * 1000000) + 1

/-- An entry after it fires or is skipped: a periodic one advances past `now` and stays ARMED, a one-shot one becomes DONE,
or ERR where its action erred (R47, R51). -/
def entryAfter (e : TatEntry) (now missed : Nat) (err : Bool) : TatEntry :=
  let e := { e with missed := missed, late := false, stepped := false }
  if e.periodMs = 0 then { e with status := if err then .err else .done }
  else if now < e.t then e
  else { e with t := e.t + instantsPassed e now * (e.periodMs * 1000000) }

/-! ## Actions (Table 2.4) -/

/-- The access that a REG_WRITE action makes (R47). -/
def actionReq (actAs : Nat) (sec : Bool) : Req := { path := .tat, tenant := actAs, sec := sec }

/-- The action's target lies in the AON island and its outcome comes later. -/
def actionAway (e : TatEntry) : Bool := e.kind = 6 && aonPage (pageOf e.argLo.toNat)

/-- EVF_FIRE (R455): judged as a write of CH_FIRE under R456; a rejected one is an action error and the channel does not
fire. -/
def fireByTable (s : State) (r : Req) (n : Nat) : Bool × State :=
  let off := Off.EVF_CH_FIRE n
  let path := pathCode s r Pg.EVF
  let code := if path ≠ 0 then path else admitWrite s r .evf 0 Pg.EVF off 1
  if code = 0 then (false, fireChannel s n true)
  else (true, setFlag (rejectAcc s r Pg.EVF off code false) Pg.EVF 3)

/-- The effect of an entry's action in the firing cycle, and whether it is an action error. A write of FT_CMD takes effect at
the cycle's boundary only (`actionCmds`). -/
def fireAction (s : State) (i : Nat) (e : TatEntry) (now missed : Nat) : Bool × State :=
  match e.kind with
  | 1 => fireByTable s (actionReq e.actAs e.sec) (e.argLo.toNat % 64)
  | 2 =>
    let r := fireSwap s (e.argHi.toNat % 64) (e.argLo.toNat % 65536)
    (decide (r.1 ≠ 0), r.2)
  | 3 =>
    let c : CloseAction :=
      { mask := e.argLo, tenant := e.argHi.toNat % 64, firedNs := now, late := e.late, mode := modeNum s.ft.mode
        step := s.ft.stepCount }
    (false, onTat s fun t => { t with closes := t.closes ++ [c] })
  | 4 => (false, onTat s fun t => { t with arms := t.arms ++ [(e.argLo.toNat % 8, e.late)] })
  | 5 => (false, doSnapshot s (e.argLo.toNat % 64) e.argHi.toNat)
  | 6 =>
    if actionAway e then
      let a : AonAction :=
        { idx := i, address := e.argLo.toNat % 0x1000000, value := e.argHi, actAs := e.actAs, sec := e.sec
          firedNs := now, late := e.late, stepped := e.stepped, missed := missed }
      (false, onTat s fun t => { t with aonWrites := t.aonWrites ++ [a] })
    else
      let s := writeJudged s (actionReq e.actAs e.sec) (e.argLo.toNat % 0x1000000) e.argHi
      (decide ((lastAnswer s .tat).code ≠ 0), s)
  | _ => (false, s)

/-- The write of FT_CMD that an entry's action makes, taken at the boundary after the firing cycle (R28). -/
def actionCmds (s : State) (e : TatEntry) (err : Bool) : List FtCmd :=
  if e.kind = 6 ∧ !err ∧ isFtCmd (e.argLo.toNat % 0x1000000) then [ftCmdOf s e.argHi] else []

/-- An action error sets ACT_ERR and counts it (R47). -/
def actionError (s : State) : State := setFlag (bump s Pg.TAT 0x058) Pg.TAT 3

/-- A skip (R52): SKIP, its record, and a staged swap withdrawn. DESIGN CHOICE (log 111): the record of a skip carries LATE
beside SKIPPED, since only a late entry is skipped. -/
def skipEntry (s : State) (i : Nat) (e : TatEntry) (now : Nat) : State :=
  let missed := instantsPassed e now
  let s := setFlag (bump s Pg.TAT 0x050) Pg.TAT 2
  let s := if e.kind = 2 then discardSwap s i (e.argHi.toNat % 64) (e.argLo.toNat % 65536) true else s
  let s := setEntry s i (entryAfter e now missed false)
  fireRecord s { idx := i, late := true, skipped := true, stepped := e.stepped, err := false, missed := missed, ns := now
                 kind := e.kind, seq := 0 }

/-- A firing (R44, R46, R55): the action, the entry's next state, the record; and the FT_CMD write it makes. -/
def fireEntry (s : State) (i : Nat) (e : TatEntry) (now : Nat) : State × List FtCmd :=
  let missed := if e.late then instantsPassed e now else 0
  let s := setFlag (bump s Pg.TAT 0x040) Pg.TAT 0
  let s := if e.late then setFlag (bump s Pg.TAT 0x048) Pg.TAT 1 else s
  let r := fireAction s i e now missed
  let cmds := actionCmds s e r.1
  let s := setEntry r.2 i (entryAfter e now missed r.1)
  let s := if r.1 then actionError s else s
  if actionAway e then (s, cmds)
  else
    (fireRecord s { idx := i, late := e.late, skipped := false, stepped := e.stepped, err := r.1, missed := missed
                    ns := now, kind := e.kind, seq := 0 }, cmds)

/-- One entry due at `now`: late entries follow their policy (R52). -/
def dueEntry (now : Nat) (s : State) (i : Nat) : State × List FtCmd :=
  let e := s.entry i
  if e.status = .armed ∧ e.t ≤ now then
    if e.late && e.skipLate then (skipEntry s i e now, []) else fireEntry s i e now
  else (s, [])

/-- The cycle's evaluation: every entry due fires in ascending index order (R45); the FT_CMD writes among their actions take
effect at the cycle's boundary, once every entry has advanced (R28, R52). -/
def evaluateAt (now : Nat) (s : State) : State :=
  let r := (storeKeys s.tat.entries).foldl (fun (x : State × List FtCmd) i =>
    let y := dueEntry now x.1 i
    (y.1, x.2 ++ y.2)) (s, [])
  r.2.foldl ftApply r.1

/-- The table evaluates: in RUN, and in BOOT once its entries are loaded (R53), while it is not paused. -/
def tatRuns (s : State) : Bool :=
  s.tat.loaded && (s.inRun || s.pwr.state = .boot) && !tatPaused s

/-- TAT_FIRE: every entry due fires in ascending index order (R44, R45). -/
def doTatFire (s : State) : State := if tatRuns s && !s.tat.passDue then evaluateAt s.ft.ns s else s

/-- LATENESS_PASS: in the first cycle after a pause every entry already due is late (R53). -/
def doLatenessPass (s : State) : State :=
  if tatRuns s && s.tat.passDue then
    let now := s.ft.ns
    evaluateAt now (onTat s fun t =>
      { t with
        passDue := false
        entries := t.entries.map fun e =>
          (e.1, if e.2.status = .armed ∧ e.2.t ≤ now then { e.2 with late := true } else e.2) })
  else s

/-- The table's part of one CORE cycle: the lateness pass where one is due, else the entries due (R17, R44, R53). -/
def tatCycle (s : State) : State := if s.tat.passDue then doLatenessPass s else doTatFire s

/-- AON_ACTION_ARRIVAL: the oldest REG_WRITE on its way is judged and applied in AON; then its record is written (R47). -/
def doAonAction (s : State) : State :=
  match s.tat.aonWrites with
  | [] => s
  | a :: rest =>
    let s := onTat s fun t => { t with aonWrites := rest }
    let s := writeJudged s (actionReq a.actAs a.sec) a.address a.value
    let err := decide ((lastAnswer s .tat).code ≠ 0)
    let e := s.entry a.idx
    let s := if err then actionError s else s
    let s := if err && e.status = .done && e.kind = 6 then setEntry s a.idx { e with status := .err } else s
    fireRecord s { idx := a.idx, late := a.late, skipped := false, stepped := a.stepped, err := err, missed := a.missed
                   ns := a.firedNs, kind := 6, seq := 0 }

/-! ## One CORE cycle -/

/-- One CORE cycle passes: what step does when no command waits. The offers of the cycle that ends are taken, time counts on, and
the table evaluates at the new Fleet Time (R17, R26, R38, R44, R448). -/
def idleCycle (s : State) : State := tatCycle (laneCycle (timePasses (takeDue 49 s)))

/-- FT_SECOND: the CORE cycle whose increment carries into the seconds field (R26, R40). In a cycle whose increment does not,
the event does not occur (log 2). -/
def doFtSecond (s : State) : State := if s.coreOn && ftCarries s then idleCycle s else s

/-! ## The commands -/

def execTatFire (s : State) : Host.Outcome State Fault Refusal := done (doTatFire s)
def execLatenessPass (s : State) : Host.Outcome State Fault Refusal := done (doLatenessPass s)
def execFtSecond (s : State) : Host.Outcome State Fault Refusal := done (doFtSecond s)
def execAonActionArrival (s : State) : Host.Outcome State Fault Refusal := done (doAonAction s)

/-! The power-fail trips: in the cycle of the trip the table is evaluated first, then the freeze (R45, Table 4.2). -/

def execPowerFailTrip (s : State) : Host.Outcome State Fault Refusal := done (trip (tatCycle s))
def execPgoodCoreLoss (s : State) : Host.Outcome State Fault Refusal := done (doPgoodLoss (tatCycle s))
def execAonPowerOnReset (byPin : Bool) (s : State) : Host.Outcome State Fault Refusal := done (doPor byPin (tatCycle s))

end Sys2Proof.Machine
end

