-- ==== Sys2Proof/Machine/Usb.lean ====
section
/-! DEFINITION. Machine/Usb.lean: the USB hub, the LMF device with its vendor requests and packets, the HKP mailbox (chapter
17), and the management operations that reach registers and the mailbox (R166, R479). -/

namespace Sys2Proof.Machine

/-! ## Attach, speed, suspend (R464, R465, R471 to R473) -/

def doVbusValid (s : State) : State := usbAttach (onUsb s fun u => { u with vbus := true })
def doVbusInvalid (s : State) : State := usbDetach (onUsb s fun u => { u with vbus := false })


/-- The LMF takes transactions: port 3 powered, the page enabled (R468, Table 3.20). -/
def lmfTalks (s : State) : Bool := hubTalks s && s.usb.lmfPower && s.en Pg.LMF

/-- A downstream port without power. -/
def portOff (p : DnPort) : DnPort := { ocN := p.ocN, overCurrent := p.overCurrent, ocChange := p.ocChange }

/-- BUS_RESET (R465): the Default state at the negotiated speed. Sequence numbers and halts stay (R487, R491). -/
def doBusReset (highSpeed : Bool) (s : State) : State :=
  if s.usb.up = .detached || !s.coreOn then s
  else
    let woken := s.usb.suspended
    let hs := highSpeed && !s.bit Pg.USBH Off.USBH_USBH_CFG 0
    let s := closeSession (onUsb s fun u =>
      { u with up := .default, suspended := false, highSpeed := hs, lmfAddr := 0, rwakeHub := false, rwakeLmf := false
               rwakeReq := false, ep2 := [], toggles := [], ep0 := none, sofCycles := 0, sofRuns := false
               ttNp := 0, ttPeriodic := 0
               ports := u.ports.map fun e => (e.1, portOff e.2) })
    let s := if woken then setFlag (bump s Pg.USBH 0x050) Pg.USBH 6 else s
    let s := setFlag (bump s Pg.USBH 0x040) Pg.USBH 2
    if hs then setFlag s Pg.USBH 3 else s

/-- FS_FALLBACK: the hub's chirp met no host chirp (Table 17.2). -/
def doFsFallback (s : State) : State :=
  if s.usb.up = .default && !s.bit Pg.USBH Off.USBH_USBH_CFG 0 then
    setFlag (bump (onUsb s fun u => { u with highSpeed := false }) Pg.USBH 0x070) Pg.USBH 4
  else s

/-- SUSPEND: 3 ms without activity; the session closes. -/
def doSuspend (s : State) : State :=
  if hubTalks s then
    setFlag (bump (closeSession (onUsb s fun u => { u with suspended := true, sofCycles := 0, sofRuns := false }))
      Pg.USBH 0x048) Pg.USBH 5
  else s

/-- RESUME by the host; what waited for EP1 IN and EP2 leaves. -/
def doUsbResume (s : State) : State :=
  if s.usb.suspended && s.coreOn then
    lmfFlush (setFlag (bump (onUsb s fun u => { u with suspended := false, rwakeReq := false }) Pg.USBH 0x050) Pg.USBH 6)
  else s

/-- USB_RESUME_WAKE: activity on a suspended USB_UP in PARK (R473). -/
def doUsbResumeWake (s : State) : State :=
  if s.pwr.state = .park ∧ s.usb.parkAttached then latchWake s 0x10 else s

/-- REMOTE_WAKE: K driven for a pending request under permission (R472, R473). -/
def doRemoteWake (s : State) : State :=
  let inPark := s.pwr.state = .park
  let ok := if inPark then s.usb.parkAttached && s.usb.parkPermission
    else s.usb.suspended && s.usb.rwakeHub && s.usb.rwakeLmf
  if ok && s.usb.rwakeReq then
    let s := onUsb s fun u => { u with rwakeReq := false }
    if inPark then s else setFlag (bump s Pg.USBH 0x058) Pg.USBH 7
  else s

/-! ## Downstream ports (R468, R469) -/

def State.dn (s : State) (n : Nat) : DnPort := storeLook s.usb.ports n {}
def onDn (s : State) (n : Nat) (f : DnPort → DnPort) : State :=
  onUsb s fun u => { u with ports := storePut u.ports n {} (f (storeLook u.ports n {})) }

/-- OVERCURRENT: the input has been low for OC_FILT_MS. -/
def doOvercurrent (n : Nat) (s : State) : State :=
  if n < 2 ∧ s.coreOn ∧ s.usb.hubStarted ∧ (s.dn n).ocN then
    let s := onDn s n fun p => { (portOff p) with ocN := false, overCurrent := true, ocChange := true }
    setFlag (bump s Pg.USBH (0x060 + 8 * n)) Pg.USBH (8 + n)
  else s

/-- OC_RELEASE: the input has been high for OC_FILT_MS after an overcurrent. -/
def doOcRelease (n : Nat) (s : State) : State :=
  if n < 2 ∧ s.coreOn ∧ s.usb.hubStarted ∧ (s.dn n).overCurrent then
    onDn s n fun p => { p with ocN := true, overCurrent := false }
  else s

/-- PORT_POWER set or cleared by the host on a downstream port, or on port 3 for the LMF. -/
def doPortPower (n : Nat) (on : Bool) (s : State) : State :=
  if !hubTalks s then s
  else if n < 2 then
    if on then
      (if s.bit Pg.USBH Off.USBH_USBH_CFG (1 + n) && !(s.dn n).overCurrent then onDn s n fun p => { p with power := true } else s)
    else onDn s n portOff
  else if n = 3 then
    let s := onUsb s fun u => { u with lmfPower := on }
    if on then s else lmfGone s
  else s

/-! ## Standard requests (R472, R490, R491) -/

/-- DEVICE_REMOTE_WAKEUP on the hub or on the LMF. -/
def doDeviceRemoteWakeup (hub on : Bool) (s : State) : State :=
  if hub then (if hubTalks s then onUsb s fun u => { u with rwakeHub := on } else s)
  else if lmfTalks s then onUsb s fun u => { u with rwakeLmf := on }
  else s

/-- SetConfiguration on the LMF: value 1 configures it, 0 returns it to the Address state (R472, R474). -/
def doSetConfiguration (v : Nat) (s : State) : State :=
  if lmfTalks s ∧ v ≤ 1 then
    let s := onUsb s fun u =>
      { u with up := if v = 1 then .configured else .address, rwakeHub := false, rwakeLmf := false, toggles := [] }
    if v = 1 then lmfFlush (setFlag s Pg.USBH 10) else s
  else s

/-- SetFeature(ENDPOINT_HALT): 0x01 EP1 OUT, 0x81 EP1 IN, 0x82 EP2 (R490). -/
def doSetHalt (ep : Nat) (s : State) : State :=
  if !lmfTalks s then s
  else if ep = 0x01 then
    if s.usb.haltOut then s else setFlag (onUsb s fun u => { u with haltOut := true, haltCause := 0 }) Pg.LMF 0
  else if ep = 0x81 then onUsb s fun u => { u with haltIn := true }
  else if ep = 0x82 then onUsb s fun u => { u with haltEp2 := true }
  else s

/-- ClearFeature(ENDPOINT_HALT): the halt ends, the toggle returns to DATA0, and EP1 OUT is acknowledged (R486, R491). -/
def doClearHalt (ep : Nat) (s : State) : State :=
  if !lmfTalks s then s
  else if ep = 0x01 then
    lmfQueue (onUsb s fun u => { u with haltOut := false, haltCause := 0, toggles := setDel u.toggles 0 }) false none
  else if ep = 0x81 then lmfFlush (onUsb s fun u => { u with haltIn := false, toggles := setDel u.toggles 1 })
  else if ep = 0x82 then lmfFlush (onUsb s fun u => { u with haltEp2 := false, toggles := setDel u.toggles 2 })
  else s

/-! ## Vendor requests (R475 to R478) -/

/-- The setup packet has the request's fields as Table 17.4 gives them. -/
def setupHolds (p : Setup) (reqType request : Nat) : Bool := p.reqType.toNat = reqType && p.request.toNat = request

/-- A protocol stall, counted where the request itself is refused (R475). -/
def stallEp0 (s : State) : State := onUsb s fun u => { u with ep0 := none }
def badRequest (s : State) : State := bump (stallEp0 s) Pg.USBH 0x078

/-- The first register address of a REG_READ or REG_WRITE, and the identity it asserts. -/
def setupAddr (p : Setup) : Nat := (p.index.toNat / 256) * 65536 + p.value.toNat
def setupReq (p : Setup) : Req := { path := .lmf, tenant := p.index.toNat % 64 }

/-- A register request is well formed: words of `size` bytes, 1 to 64 of them, reserved bits 0. -/
def regSetupHolds (p : Setup) (reqType request size : Nat) : Bool :=
  setupHolds p reqType request && decide (p.index.toNat / 64 % 4 = 0) && decide (p.length % size = 0) &&
    decide (1 ≤ p.length / size) && decide (p.length / size ≤ 64)

/-- The accesses of the LMF path are carried now: the device answers, in BOOT or RUN (Table 3.10). -/
def lmfServes (s : State) : Bool := lmfTalks s && pathServed s .lmf

/-- One result in the layout of Table 6.7. -/
def resultBytes (a : AccResult) : List Byte := [BitVec.ofNat 8 a.code, 0, 0, 0] ++ a.value.bytes

/-- REG_READ (R476). -/
def doRegRead (p : Setup) (s : State) : State :=
  if !lmfServes s then s
  else if !regSetupHolds p 0xC0 0x01 8 then badRequest s
  else
    let n := p.length / 8
    let r := (List.range n).foldl (fun (r : State × List Byte) k =>
      let s := regReadAcc r.1 (setupReq p) ((setupAddr p + 4 * k) % 0x1000000)
      (s, r.2 ++ resultBytes (lastAnswer s .lmf))) (s, [])
    onUsb (bumpBy r.1 Pg.LMF 0x080 n) fun u => { u with ep0 := some r.2 }

/-- The writes of a REG_WRITE in order: the machine, the number rejected, and the first rejection's index and code. -/
def regWrites (p : Setup) (s : State) (data : List Word) : State × Nat × Option (Nat × Nat) :=
  data.zipIdx.foldl (fun (r : State × Nat × Option (Nat × Nat)) e =>
    let s := regWriteAcc r.1 (setupReq p) ((setupAddr p + 4 * e.2) % 0x1000000) e.1
    let code := (lastAnswer s .lmf).code
    if code = 0 then (s, r.2) else (s, r.2.1 + 1, r.2.2.or (some (e.2, code)))) (s, 0, none)

/-- WR_STATUS (Table 17.10). -/
def wrStatus (n rejected : Nat) (first : Option (Nat × Nat)) : Word :=
  Word.place 6 0 (n - rejected) ||| Word.place 14 8 rejected ||| Word.place 21 16 ((first.map Prod.fst).getD 0) |||
    Word.place 31 24 ((first.map Prod.snd).getD 0)

/-- REG_WRITE (R477): performed once its data stage is whole, else discarded (R478). -/
def doRegWrite (p : Setup) (data : List Word) (s : State) : State :=
  if !lmfServes s then s
  else if !regSetupHolds p 0x40 0x02 4 then badRequest s
  else if data.length * 4 ≠ p.length then s
  else
    let r := regWrites p s data
    let s := bumpBy r.1 Pg.LMF 0x088 data.length
    let s := setReg s Pg.LMF Off.LMF_WR_STATUS (wrStatus data.length r.2.1 r.2.2)
    if r.2.1 = 0 then onUsb s fun u => { u with ep0 := some [] } else setFlag (stallEp0 s) Pg.LMF 3

/-! ## The HKP mailbox (R479 to R483) -/

/-- Mailbox STATUS values (Table 17.7). -/
def Mb.OK : Nat := 0
def Mb.UNKNOWN : Nat := 1
def Mb.BAD_LEN : Nat := 2
def Mb.SEQUENCE : Nat := 3
def Mb.SEC_REQUIRED : Nat := 4
def Mb.NOT_ALLOWED : Nat := 5
def Mb.VERIFY : Nat := 6
def Mb.WRITE_ERR : Nat := 7
def Mb.TIMEOUT : Nat := 8

/-- A message enters the free mailbox. -/
def mailboxTakes (s : State) (m : Mailbox) : State := bump (onUsb s fun u => { u with mailbox := some m }) Pg.HKP 0x040

/-- HKP_MAILBOX OUT (R479). -/
def doMailboxOut (p : Setup) (msg : List Byte) (s : State) : State :=
  if !lmfServes s then s
  else if !setupHolds p 0x40 0x03 || decide (p.value ≠ 0) || decide (p.index ≠ 0) || decide (p.length < 8) ||
      decide (4096 < p.length) then badRequest s
  else if msg.length ≠ p.length then s
  else if s.usb.mailbox.isSome then
    let s := loadErr (bump (stallEp0 s) Pg.HKP 0x058) Pg.HKP
      (Word.place 7 0 0x01 ||| flagBit 24 s.sec.session ||| Word.place 26 25 1)
    setFlag s Pg.HKP 2
  else
    let s := mailboxTakes s { lmf := true, opTag := none, sec := s.sec.session, msg := msg }
    onUsb s fun u => { u with ep0 := some [] }

/-- HKP_MAILBOX IN: the ready reply of an LMF message, which frees the mailbox, or nothing (R482). -/
def doMailboxIn (p : Setup) (s : State) : State :=
  if !lmfServes s then s
  else if !setupHolds p 0xC0 0x03 || decide (p.value ≠ 0) || decide (p.index ≠ 0) || decide (p.length ≠ 4096) then badRequest s
  else
    match s.usb.mailbox with
    | some m =>
      match m.lmf, m.reply with
      | true, some r => onUsb s fun u => { u with mailbox := none, ep0 := some r }
      | _, _ => onUsb s fun u => { u with ep0 := some [] }
    | none => onUsb s fun u => { u with ep0 := some [] }

/-- MAILBOX on Fratra (R479): the message enters the mailbox, or BUSY. -/
def doMailboxOp (k : Nat) (s : State) : State :=
  match opReady s 0x71 k with
  | none => s
  | some o =>
    if s.usb.mailbox.isSome then finishOp s k { status := St.BUSY }
    else onOp (mailboxTakes s { lmf := false, opTag := some k, sec := o.secure, msg := o.data }) k
      fun o => { o with phase := .mailbox }

/-- Message type, TAG, and LEN of a message (Table 17.5). -/
def mbType (m : List Byte) : Nat := beNat (m.take 2)
def mbLen (m : List Byte) : Nat := beNat ((m.drop 4).take 4)
def mbWhole (m : List Byte) : Bool := decide (8 ≤ m.length) && decide (mbLen m + 8 = m.length)

/-- A reply: MSG + 0x8000 and TAG, each 0 where the message has none, then STATUS, DETAIL and the data (R480). -/
def mbReply (m : List Byte) (status detail : Nat) (data : List Byte) : List Byte :=
  (if m.length < 2 then [0, 0] else beBytes 2 ((mbType m + 0x8000) % 65536)) ++
    (if m.length < 4 then [0, 0] else (m.drop 2).take 2) ++
    beBytes 4 (4 + data.length) ++ beBytes 2 status ++ beBytes 2 detail ++ data

/-- What serves the mailbox: the boot ROM in USB_WAIT, or the running HKP image. -/
def hkpServes (s : State) : Bool := s.pwr.usbWait || s.pwr.image

/-- The message of type `t` that waits for the HKP. -/
def mbWaiting (s : State) (t : Nat) : Option Mailbox :=
  match s.usb.mailbox with
  | some m =>
    if hkpServes s && m.composed.isNone && m.reply.isNone && mbWhole m.msg && mbType m.msg = t then some m else none
  | none => none

/-- The HKP has composed its reply. -/
def compose (s : State) (m : Mailbox) (status detail : Nat) (data : List Byte) : State :=
  onUsb s fun u => { u with mailbox := some { m with composed := some (mbReply m.msg status detail data) } }

/-- FW_INFO. -/
def doFwInfo (s : State) : State :=
  match mbWaiting s 0x0001 with
  | none => s
  | some m =>
    if mbLen m.msg ≠ 0 then compose s m Mb.BAD_LEN 0 []
    else
      let st := s.reg Pg.SEC Off.SEC_SEC_STAT
      compose s m Mb.OK 0
        (beBytes 2 (s.fld Pg.SEC Off.SEC_BOOT_VER 15 0) ++ [BitVec.ofNat 8 (st.fld 2 1), BitVec.ofNat 8 (st.fld 5 4),
          BitVec.ofNat 8 (s.fld Pg.RST Off.RST_IMAGE_INFO 0 0), 0, 0, 0] ++
          (s.reg Pg.SYS Off.SYS_SERIAL_HI).bytes ++ (s.reg Pg.SYS Off.SYS_SERIAL_LO).bytes)

/-- IMG_BEGIN: TOTAL is a header of 144 bytes and a body of whole 16-byte units (Tables 4.6, 17.6). -/
def doImgBegin (s : State) : State :=
  match mbWaiting s 0x0010 with
  | none => s
  | some m =>
    let target := ((m.msg.drop 8).headD 0).toNat
    let total := beNat ((m.msg.drop 12).take 4)
    if mbLen m.msg ≠ 8 ∨ total < 160 ∨ 4194448 < total ∨ total % 16 ≠ 0 then compose s m Mb.BAD_LEN 0 []
    else if 1 ≤ target ∧ target ≤ 4 ∧ m.sec = false then compose s m Mb.SEC_REQUIRED 0 []
    else if 4 < target ∨ (target = 0 ∧ s.pwr.usbWait = false) ∨ (target ≠ 0 ∧ s.inRun = false) then
      compose s m Mb.NOT_ALLOWED 0 []
    else compose (onUsb s fun u => { u with image := some { target := target, total := total } }) m Mb.OK 0 []

/-- IMG_DATA: bytes at consecutive OFFSET. -/
def doImgData (s : State) : State :=
  match mbWaiting s 0x0011 with
  | none => s
  | some m =>
    let off := beNat ((m.msg.drop 8).take 4)
    let bytes := m.msg.drop 12
    if mbLen m.msg < 5 ∨ 4088 < mbLen m.msg then compose s m Mb.BAD_LEN 0 []
    else
      match s.usb.image with
      | none => compose s m Mb.SEQUENCE 0 []
      | some i =>
        if off ≠ i.data.length then compose s m Mb.SEQUENCE 0 []
        else if i.total < i.data.length + bytes.length then compose s m Mb.BAD_LEN 0 []
        else compose (onUsb s fun u => { u with image := some { i with data := i.data ++ bytes } }) m Mb.OK 0 []

/-- IMG_END (R481): the image received is verified under R107. `programmed` and `readBack` say how the write of its copy went.
DESIGN CHOICE (log 143): what a copy holds whose write failed is open, and IMAGE_VERIFY says it when it reads the copy. -/
def doImgEnd (programmed readBack : Bool) (s : State) : State :=
  match mbWaiting s 0x0012 with
  | none => s
  | some m =>
    if mbLen m.msg ≠ 0 then compose s m Mb.BAD_LEN 0 []
    else
      match s.usb.image with
      | none => compose s m Mb.SEQUENCE 0 []
      | some i =>
        if i.data.length ≠ i.total then compose s m Mb.SEQUENCE 0 []
        else
          let img : ImageRead := { readOk := true, bytes := i.data }
          let code := imageFault s img
          let s := onUsb s fun u => { u with image := none }
          if code ≠ 0 then
            compose (if i.target = 0 then refuseImage s s.pwr.tried code else s) m Mb.VERIFY code []
          else if i.target = 0 then acceptImage (compose s m Mb.OK 0 []) 2 1 s.pwr.tried img
          else if programmed && readBack then
            compose (bump (onUsb s fun u => { u with copies := storeInsert u.copies i.target i.data }) Pg.HKP 0x060) m Mb.OK 0 []
          else compose (onUsb s fun u => { u with copies := storeErase u.copies i.target }) m Mb.WRITE_ERR 0 []

/-- A reply is ready: MBOX_DONE; a Fratra operation is answered with it, which frees the mailbox (R479). -/
def replyReady (s : State) (m : Mailbox) (r : List Byte) : State :=
  let s := setFlag s Pg.HKP 0
  match m.opTag with
  | some k => finishOp (onUsb s fun u => { u with mailbox := none }) k { status := St.OK, total := r.length, value := r }
  | none => onUsb s fun u => { u with mailbox := some { m with reply := some r } }

/-- MBOX_DONE: the HKP hands over the reply it composed, or refuses a message that is no message of Table 17.6 (R480). -/
def doMboxDone (s : State) : State :=
  match s.usb.mailbox with
  | none => s
  | some m =>
    if m.reply.isSome || !hkpServes s then s
    else
      let known := mbType m.msg = 0x0001 || mbType m.msg = 0x0010 || mbType m.msg = 0x0011 || mbType m.msg = 0x0012
      let r := match m.composed with
        | some r => some r
        | none =>
          if !mbWhole m.msg then some (mbReply m.msg Mb.BAD_LEN 0 [])
          else if known then none
          else some (mbReply m.msg Mb.UNKNOWN 0 [])
      match r with
      | some r => replyReady (bump s Pg.HKP 0x048) m r
      | none => s

/-- MBOX_TIMEOUT (R483): LH-96 composes the reply. An operation whose message a detach discarded is answered the same. -/
def doMboxTimeout (s : State) : State :=
  match s.usb.mailbox with
  | some m =>
    if m.reply.isSome then s
    else replyReady (setFlag (bump s Pg.HKP 0x050) Pg.HKP 1) m (mbReply m.msg Mb.TIMEOUT 0 [])
  | none =>
    match s.fratra.ops.find? fun e => decide (e.2.phase = .mailbox) with
    | some (k, o) =>
      let r := mbReply o.data Mb.TIMEOUT 0 []
      finishOp (setFlag (bump s Pg.HKP 0x050) Pg.HKP 1) k { status := St.OK, total := r.length, value := r }
    | none => s

/-- REPLY_DISCARD: an LMF reply not taken within 10 s (R482). -/
def doReplyDiscard (s : State) : State :=
  match s.usb.mailbox with
  | some m => if m.lmf && m.reply.isSome then onUsb s fun u => { u with mailbox := none } else s
  | none => s

/-! ## EP1 OUT (R484 to R490) -/

/-- The cause of a halt by an OUT packet's header, 0 when it is well formed (R490, HALT_STAT CAUSE). -/
def outFault (p : LmfFrame) : Nat :=
  if p.kind ≠ 0 then 1
  else if p.length < 32 ∨ 9582 < p.length ∨ p.length ≠ p.bytes.length then 2
  else if p.byte2 &&& 0xF8 ≠ 0 then 3
  else 0

/-- A packet with LSEQ = E is taken (R485, R486). -/
def takePacket (s : State) (p : LmfFrame) : State :=
  let n := s.fratra.nextOrder
  let s := bump { s with fratra := { s.fratra with nextOrder := n + 1 } } Pg.LMF 0x040
  onUsb s fun u =>
    { u with outExp := (u.outExp + 1) % 65536, lastTaken := p.lseq % 65536, bulk := u.bulk ++ [(n, p)]
             ackOwed := u.ackOwed || decide (p.byte2.toNat % 8 = 0) }

/-- OUT_PACKET. A NAK, as while the buffer is full, changes nothing (R485, R488). -/
def doOutPacket (p : LmfFrame) (s : State) : State :=
  if !(lmfTalks s && s.lmfLive && s.inRun) || s.usb.haltOut || decide (8 ≤ s.usb.bulk.length) then s
  else
    let s := flipToggle s 0 (busPackets s (8 + p.bytes.length))
    if outFault p ≠ 0 then
      setFlag (bump (onUsb s fun u => { u with haltOut := true, haltCause := outFault p }) Pg.LMF 0x068) Pg.LMF 0
    else
      let d := (p.lseq % 65536 + 65536 - s.usb.outExp) % 65536
      if d = 0 then takePacket s p
      else if 32768 ≤ d then lmfQueue (bump s Pg.LMF 0x058) false none
      else lmfQueue (setFlag (bump s Pg.LMF 0x060) Pg.LMF 1) true none

/-- ACK_DELAY: no IN packet has carried the ACK of a BURST 0 packet (R486). -/
def doAckDelay (s : State) : State := if s.usb.ackOwed then lmfQueue s false none else s

/-! ## REG_ACCESS (R166) -/

/-- One access record of a REG_ACCESS: [31] WRITE and the address, then the value. -/
def regRecord (sec : Bool) (r : State × List Byte) (rec : List Byte) : State × List Byte :=
  let w := beNat (rec.take 4)
  let q : Req := { path := .fratra, tenant := 0, sec := sec }
  let a := w % 0x1000000
  let s := if w / 2 ^ 31 % 2 = 1 then regWriteAcc r.1 q a (BitVec.ofNat 32 (beNat ((rec.drop 4).take 4))) else regReadAcc r.1 q a
  (s, r.2 ++ resultBytes (lastAnswer s .fratra))

/-- MGMT REG_ACCESS: the records in order, each with its result. -/
def doRegAccess (k : Nat) (s : State) : State :=
  match opReady s 0x70 k with
  | none => s
  | some o =>
    let n := o.data.length / 8
    let r := (List.range n).foldl (fun r i => regRecord o.secure r ((o.data.drop (8 * i)).take 8)) (s, [])
    finishOp r.1 k { status := St.OK, total := r.2.length, value := r.2 }

/-! ## The commands -/

def execVbusValid (s : State) : Host.Outcome State Fault Refusal := done (doVbusValid s)
def execVbusInvalid (s : State) : Host.Outcome State Fault Refusal := done (doVbusInvalid s)
def execBusReset (highSpeed : Bool) (s : State) : Host.Outcome State Fault Refusal := done (doBusReset highSpeed s)
def execFsFallback (s : State) : Host.Outcome State Fault Refusal := done (doFsFallback s)
def execSuspend (s : State) : Host.Outcome State Fault Refusal := done (doSuspend s)
def execResume (s : State) : Host.Outcome State Fault Refusal := done (doUsbResume s)
def execUsbResumeWake (s : State) : Host.Outcome State Fault Refusal := done (doUsbResumeWake s)
def execRemoteWake (s : State) : Host.Outcome State Fault Refusal := done (doRemoteWake s)
def execOvercurrent (port : Nat) (s : State) : Host.Outcome State Fault Refusal := done (doOvercurrent port s)
def execOcRelease (port : Nat) (s : State) : Host.Outcome State Fault Refusal := done (doOcRelease port s)
def execPortPower (port : Nat) (on : Bool) (s : State) : Host.Outcome State Fault Refusal := done (doPortPower port on s)
def execDeviceRemoteWakeup (hub on : Bool) (s : State) : Host.Outcome State Fault Refusal :=
  done (doDeviceRemoteWakeup hub on s)
def execSetConfiguration (value : Nat) (s : State) : Host.Outcome State Fault Refusal := done (doSetConfiguration value s)
def execSetFeatureEndpointHalt (endpoint : Nat) (s : State) : Host.Outcome State Fault Refusal := done (doSetHalt endpoint s)
def execClearFeatureEndpointHalt (endpoint : Nat) (s : State) : Host.Outcome State Fault Refusal :=
  done (doClearHalt endpoint s)
def execRegRead (setup : Setup) (s : State) : Host.Outcome State Fault Refusal := done (doRegRead setup s)
def execRegWrite (setup : Setup) (data : List Word) (s : State) : Host.Outcome State Fault Refusal :=
  done (doRegWrite setup data s)
def execHkpMailboxOut (setup : Setup) (message : List Byte) (s : State) : Host.Outcome State Fault Refusal :=
  done (doMailboxOut setup message s)
def execHkpMailboxIn (setup : Setup) (s : State) : Host.Outcome State Fault Refusal := done (doMailboxIn setup s)
def execFwInfo (s : State) : Host.Outcome State Fault Refusal := done (doFwInfo s)
def execImgBegin (s : State) : Host.Outcome State Fault Refusal := done (doImgBegin s)
def execImgData (s : State) : Host.Outcome State Fault Refusal := done (doImgData s)
def execImgEnd (programmed readBack : Bool) (s : State) : Host.Outcome State Fault Refusal :=
  done (doImgEnd programmed readBack s)
def execMboxDone (s : State) : Host.Outcome State Fault Refusal := done (doMboxDone s)
def execMboxTimeout (s : State) : Host.Outcome State Fault Refusal := done (doMboxTimeout s)
def execReplyDiscard (s : State) : Host.Outcome State Fault Refusal := done (doReplyDiscard s)
def execOutPacket (packet : LmfFrame) (s : State) : Host.Outcome State Fault Refusal := done (doOutPacket packet s)
def execAckDelay (s : State) : Host.Outcome State Fault Refusal := done (doAckDelay s)
def execRegAccess (op : Nat) (s : State) : Host.Outcome State Fault Refusal := done (doRegAccess op s)
def execMailbox (op : Nat) (s : State) : Host.Outcome State Fault Refusal := done (doMailboxOp op s)

end Sys2Proof.Machine
end

