-- ==== Sys2Proof/Machine/Dispatch.lean ====
section
/-! DEFINITION. Machine/Dispatch.lean: one arm per command. -/

namespace Sys2Proof.Machine

/-- The effect of a command on everything but the queue. -/
def exec (i : Instr) (s : State) : Host.Outcome State Fault Refusal :=
  match i with
  | .aonPowerOnReset v0 => Sys2Proof.Machine.execAonPowerOnReset v0 s
  | .aonPorRelease v0 => Sys2Proof.Machine.execAonPorRelease v0 s
  | .powerUp => Sys2Proof.Machine.execPowerUp s
  | .pgoodCoreRise => Sys2Proof.Machine.execPgoodCoreRise s
  | .pgoodTimeout => Sys2Proof.Machine.execPgoodTimeout s
  | .retryWaitEnd => Sys2Proof.Machine.execRetryWaitEnd s
  | .pgoodStuck => Sys2Proof.Machine.execPgoodStuck s
  | .coreResetRelease => Sys2Proof.Machine.execCoreResetRelease s
  | .refLoss => Sys2Proof.Machine.execRefLoss s
  | .refclkReturn => Sys2Proof.Machine.execRefclkReturn s
  | .pllRelock v0 => Sys2Proof.Machine.execPllRelock v0 s
  | .pgoodCoreLoss => Sys2Proof.Machine.execPgoodCoreLoss s
  | .powerFailTrip => Sys2Proof.Machine.execPowerFailTrip s
  | .glitch => Sys2Proof.Machine.execGlitch s
  | .harvestLunDrop v0 => Sys2Proof.Machine.execHarvestLunDrop v0 s
  | .harvestProgFail v0 => Sys2Proof.Machine.execHarvestProgFail v0 s
  | .harvestDone v0 v1 => Sys2Proof.Machine.execHarvestDone v0 v1 s
  | .park v0 v1 => Sys2Proof.Machine.execPark v0 v1 s
  | .settleDrainLimit => Sys2Proof.Machine.execSettleDrainLimit s
  | .settleComplete v0 => Sys2Proof.Machine.execSettleComplete v0 s
  | .resetNAssert => Sys2Proof.Machine.execResetNAssert s
  | .resetNRelease v0 => Sys2Proof.Machine.execResetNRelease v0 s
  | .warm v0 v1 => Sys2Proof.Machine.execWarm v0 v1 s
  | .wdtKick v0 v1 => Sys2Proof.Machine.execWdtKick v0 v1 s
  | .wdtWarn => Sys2Proof.Machine.execWdtWarn s
  | .wdtExpire => Sys2Proof.Machine.execWdtExpire s
  | .imageVerify v0 => Sys2Proof.Machine.execImageVerify v0 s
  | .populationDiscovery v0 => Sys2Proof.Machine.execPopulationDiscovery v0 s
  | .recovery v0 => Sys2Proof.Machine.execRecovery v0 s
  | .runEntry => Sys2Proof.Machine.execRunEntry s
  | .latenessPass => Sys2Proof.Machine.execLatenessPass s
  | .step v0 v1 => Sys2Proof.Machine.execStep v0 v1 s
  | .set v0 v1 => Sys2Proof.Machine.execSet v0 v1 s
  | .stateLoad v0 v1 => Sys2Proof.Machine.execStateLoad v0 v1 s
  | .ftRdNs v0 => Sys2Proof.Machine.execFtRdNs v0 s
  | .ftSecond => Sys2Proof.Machine.execFtSecond s
  | .tsyncInEdge v0 => Sys2Proof.Machine.execTsyncInEdge v0 s
  | .tsyncOutPulse => Sys2Proof.Machine.execTsyncOutPulse s
  | .tsyncOutEnd => Sys2Proof.Machine.execTsyncOutEnd s
  | .syncTimeout => Sys2Proof.Machine.execSyncTimeout s
  | .corrRingRead v0 v1 => Sys2Proof.Machine.execCorrRingRead v0 v1 s
  | .taggerRecalibrate v0 => Sys2Proof.Machine.execTaggerRecalibrate v0 s
  | .taggerRecalDone => Sys2Proof.Machine.execTaggerRecalDone s
  | .tatFire => Sys2Proof.Machine.execTatFire s
  | .aonActionArrival => Sys2Proof.Machine.execAonActionArrival s
  | .intervalClose => Sys2Proof.Machine.execIntervalClose s
  | .read v0 v1 => Sys2Proof.Machine.execRead v0 v1 s
  | .write v0 v1 => Sys2Proof.Machine.execWrite v0 v1 s
  | .cancel v0 v1 => Sys2Proof.Machine.execCancel v0 v1 s
  | .tatCfg v0 v1 => Sys2Proof.Machine.execTatCfg v0 v1 s
  | .registerWrite v0 v1 v2 => Sys2Proof.Machine.execRegisterWrite v0 v1 v2 s
  | .errCodeRead v0 v1 => Sys2Proof.Machine.execErrCodeRead v0 v1 s
  | .counterRead v0 v1 => Sys2Proof.Machine.execCounterRead v0 v1 s
  | .irqFlag v0 v1 v2 => Sys2Proof.Machine.execIrqFlag v0 v1 v2 s
  | .irqForce v0 v1 v2 => Sys2Proof.Machine.execIrqForce v0 v1 v2 s
  | .irqEn v0 v1 v2 => Sys2Proof.Machine.execIrqEn v0 v1 v2 s
  | .coalTimerExpire v0 v1 => Sys2Proof.Machine.execCoalTimerExpire v0 v1 s
  | .pageOwner v0 v1 v2 => Sys2Proof.Machine.execPageOwner v0 v1 v2 s
  | .softRst v0 v1 v2 => Sys2Proof.Machine.execSoftRst v0 v1 v2 s
  | .softRstDone v0 => Sys2Proof.Machine.execSoftRstDone v0 s
  | .pageCtrlEn v0 v1 v2 => Sys2Proof.Machine.execPageCtrlEn v0 v1 v2 s
  | .load v0 v1 => Sys2Proof.Machine.execLoad v0 v1 s
  | .generate v0 v1 => Sys2Proof.Machine.execGenerate v0 v1 s
  | .zeroize v0 v1 => Sys2Proof.Machine.execZeroize v0 v1 s
  | .check_ v0 v1 => Sys2Proof.Machine.execCheck v0 v1 s
  | .keyDone v0 => Sys2Proof.Machine.execKeyDone v0 s
  | .go v0 v1 => Sys2Proof.Machine.execGo v0 v1 s
  | .sessNonceRead v0 => Sys2Proof.Machine.execSessNonceRead v0 s
  | .sessOpen v0 v1 => Sys2Proof.Machine.execSessOpen v0 v1 s
  | .sessClose v0 v1 => Sys2Proof.Machine.execSessClose v0 v1 s
  | .sessIdleTimeout => Sys2Proof.Machine.execSessIdleTimeout s
  | .lockoutEnd => Sys2Proof.Machine.execLockoutEnd s
  | .portCfg v0 v1 v2 => Sys2Proof.Machine.execPortCfg v0 v1 v2 s
  | .linkUp v0 v1 => Sys2Proof.Machine.execLinkUp v0 v1 s
  | .linkDown v0 v1 v2 => Sys2Proof.Machine.execLinkDown v0 v1 v2 s
  | .rxFrameStart v0 v1 => Sys2Proof.Machine.execRxFrameStart v0 v1 s
  | .rxFrameEnd v0 v1 v2 => Sys2Proof.Machine.execRxFrameEnd v0 v1 v2 s
  | .pause v0 v1 => Sys2Proof.Machine.execPause v0 v1 s
  | .pfc v0 v1 v2 => Sys2Proof.Machine.execPfc v0 v1 v2 s
  | .pauseExpire v0 v1 => Sys2Proof.Machine.execPauseExpire v0 v1 s
  | .pauseRefresh v0 => Sys2Proof.Machine.execPauseRefresh v0 s
  | .txFrameDone v0 v1 => Sys2Proof.Machine.execTxFrameDone v0 v1 s
  | .txTsNs v0 v1 => Sys2Proof.Machine.execTxTsNs v0 v1 s
  | .save v0 v1 => Sys2Proof.Machine.execSave v0 v1 s
  | .saveDone v0 => Sys2Proof.Machine.execSaveDone v0 s
  | .arrival => Sys2Proof.Machine.execArrival s
  | .progressResponse v0 => Sys2Proof.Machine.execProgressResponse v0 s
  | .streamIdle v0 => Sys2Proof.Machine.execStreamIdle v0 s
  | .get v0 => Sys2Proof.Machine.execGet v0 s
  | .getRange v0 => Sys2Proof.Machine.execGetRange v0 s
  | .put v0 => Sys2Proof.Machine.execPut v0 s
  | .putIfAbsent v0 => Sys2Proof.Machine.execPutIfAbsent v0 s
  | .append v0 => Sys2Proof.Machine.execAppend v0 s
  | .cas v0 => Sys2Proof.Machine.execCas v0 s
  | .delete v0 => Sys2Proof.Machine.execDelete v0 s
  | .hold v0 => Sys2Proof.Machine.execHold v0 s
  | .release v0 => Sys2Proof.Machine.execRelease v0 s
  | .aliasSet v0 => Sys2Proof.Machine.execAliasSet v0 s
  | .aliasSwapAt v0 => Sys2Proof.Machine.execAliasSwapAt v0 s
  | .scan v0 => Sys2Proof.Machine.execScan v0 s
  | .stat v0 => Sys2Proof.Machine.execStat v0 s
  | .flush v0 => Sys2Proof.Machine.execFlush v0 s
  | .regAccess v0 => Sys2Proof.Machine.execRegAccess v0 s
  | .mailbox v0 => Sys2Proof.Machine.execMailbox v0 s
  | .incidentEvent => Sys2Proof.Machine.execIncidentEvent s
  | .incClose => Sys2Proof.Machine.execIncClose s
  | .tenCfg v0 v1 v2 => Sys2Proof.Machine.execTenCfg v0 v1 v2 s
  | .tenBind v0 v1 v2 => Sys2Proof.Machine.execTenBind v0 v1 v2 s
  | .reset v0 v1 v2 => Sys2Proof.Machine.execReset v0 v1 v2 s
  | .resetDone v0 => Sys2Proof.Machine.execResetDone v0 s
  | .purge v0 v1 v2 => Sys2Proof.Machine.execPurge v0 v1 v2 s
  | .purgeDone v0 => Sys2Proof.Machine.execPurgeDone v0 s
  | .writeBack v0 => Sys2Proof.Machine.execWriteBack v0 s
  | .programDone v0 => Sys2Proof.Machine.execProgramDone v0 s
  | .programFail v0 => Sys2Proof.Machine.execProgramFail v0 s
  | .eraseDone v0 v1 => Sys2Proof.Machine.execEraseDone v0 v1 s
  | .eraseFail v0 v1 => Sys2Proof.Machine.execEraseFail v0 v1 s
  | .codewordRead v0 => Sys2Proof.Machine.execCodewordRead v0 s
  | .fold v0 => Sys2Proof.Machine.execFold v0 s
  | .gleaning v0 => Sys2Proof.Machine.execGleaning v0 s
  | .refresh v0 => Sys2Proof.Machine.execRefresh v0 s
  | .wearMove v0 => Sys2Proof.Machine.execWearMove v0 s
  | .switch v0 => Sys2Proof.Machine.execSwitch v0 s
  | .gleanCfg v0 v1 => Sys2Proof.Machine.execGleanCfg v0 v1 s
  | .nchRetrain v0 v1 v2 => Sys2Proof.Machine.execNchRetrain v0 v1 v2 s
  | .retrainDone v0 v1 => Sys2Proof.Machine.execRetrainDone v0 v1 s
  | .dramUncorrectable v0 v1 => Sys2Proof.Machine.execDramUncorrectable v0 v1 s
  | .rebuildDone => Sys2Proof.Machine.execRebuildDone s
  | .patrolDone => Sys2Proof.Machine.execPatrolDone s
  | .commandTimeout v0 => Sys2Proof.Machine.execCommandTimeout v0 s
  | .lunCmd v0 v1 => Sys2Proof.Machine.execLunCmd v0 v1 s
  | .identDone => Sys2Proof.Machine.execIdentDone s
  | .tempSample v0 => Sys2Proof.Machine.execTempSample v0 s
  | .bankCheck v0 => Sys2Proof.Machine.execBankCheck v0 s
  | .bankMeasure v0 => Sys2Proof.Machine.execBankMeasure v0 s
  | .ts1 v0 => Sys2Proof.Machine.execTs1 v0 s
  | .ts2 v0 v1 v2 => Sys2Proof.Machine.execTs2 v0 v1 v2 s
  | .hello v0 => Sys2Proof.Machine.execHello v0 s
  | .width v0 v1 => Sys2Proof.Machine.execWidth v0 v1 s
  | .trainLimit => Sys2Proof.Machine.execTrainLimit s
  | .rateDwell => Sys2Proof.Machine.execRateDwell s
  | .linkFlit v0 => Sys2Proof.Machine.execLinkFlit v0 s
  | .linkFlitSend v0 => Sys2Proof.Machine.execLinkFlitSend v0 s
  | .replayTimeout => Sys2Proof.Machine.execReplayTimeout s
  | .lockLost v0 => Sys2Proof.Machine.execLockLost v0 s
  | .autoWiden => Sys2Proof.Machine.execAutoWiden s
  | .acdRetrain v0 v1 => Sys2Proof.Machine.execAcdRetrain v0 v1 s
  | .widthSet v0 v1 => Sys2Proof.Machine.execWidthSet v0 v1 s
  | .adopt v0 v1 => Sys2Proof.Machine.execAdopt v0 v1 s
  | .takeover v0 v1 => Sys2Proof.Machine.execTakeover v0 v1 s
  | .forget v0 v1 => Sys2Proof.Machine.execForget v0 v1 s
  | .hbMiss => Sys2Proof.Machine.execHbMiss s
  | .retrainGraceExpire => Sys2Proof.Machine.execRetrainGraceExpire s
  | .mirror v0 v1 v2 => Sys2Proof.Machine.execMirror v0 v1 v2 s
  | .mirrorAck v0 v1 v2 => Sys2Proof.Machine.execMirrorAck v0 v1 v2 s
  | .leadMap v0 => Sys2Proof.Machine.execLeadMap v0 s
  | .notice v0 v1 v2 => Sys2Proof.Machine.execNotice v0 v1 v2 s
  | .incident v0 v1 => Sys2Proof.Machine.execIncident v0 v1 s
  | .portMacs v0 v1 => Sys2Proof.Machine.execPortMacs v0 v1 s
  | .relay v0 v1 => Sys2Proof.Machine.execRelay v0 v1 s
  | .keyReq v0 => Sys2Proof.Machine.execKeyReq v0 s
  | .keyData v0 => Sys2Proof.Machine.execKeyData v0 s
  | .divList v0 v1 v2 => Sys2Proof.Machine.execDivList v0 v1 v2 s
  | .divEnd v0 v1 => Sys2Proof.Machine.execDivEnd v0 v1 s
  | .twinHeartbeatSend => Sys2Proof.Machine.execTwinHeartbeatSend s
  | .twinHeartbeat v0 => Sys2Proof.Machine.execTwinHeartbeat v0 s
  | .ethPathDown => Sys2Proof.Machine.execEthPathDown s
  | .joinWaitExpire => Sys2Proof.Machine.execJoinWaitExpire s
  | .tickLo v0 => Sys2Proof.Machine.execTickLo v0 s
  | .almCmpHi v0 v1 v2 => Sys2Proof.Machine.execAlmCmpHi v0 v1 v2 s
  | .almCmpLo v0 v1 v2 => Sys2Proof.Machine.execAlmCmpLo v0 v1 v2 s
  | .alarm v0 => Sys2Proof.Machine.execAlarm v0 s
  | .taskDue v0 => Sys2Proof.Machine.execTaskDue v0 s
  | .nop => Sys2Proof.Machine.execNop s
  | .i2cWr v0 => Sys2Proof.Machine.execI2cWr v0 s
  | .i2cRd v0 => Sys2Proof.Machine.execI2cRd v0 s
  | .i2cRegrd v0 => Sys2Proof.Machine.execI2cRegrd v0 s
  | .uartTx => Sys2Proof.Machine.execUartTx s
  | .uartRx => Sys2Proof.Machine.execUartRx s
  | .uartMatch => Sys2Proof.Machine.execUartMatch s
  | .adc => Sys2Proof.Machine.execAdc s
  | .gpiRd => Sys2Proof.Machine.execGpiRd s
  | .wait => Sys2Proof.Machine.execWait s
  | .branch => Sys2Proof.Machine.execBranch s
  | .field_ => Sys2Proof.Machine.execField s
  | .uartStepTimeout => Sys2Proof.Machine.execUartStepTimeout s
  | .debouncedEdge v0 => Sys2Proof.Machine.execDebouncedEdge v0 s
  | .seqTimeout v0 => Sys2Proof.Machine.execSeqTimeout v0 s
  | .batchClose v0 => Sys2Proof.Machine.execBatchClose v0 s
  | .batchMove v0 => Sys2Proof.Machine.execBatchMove v0 s
  | .moveRetry => Sys2Proof.Machine.execMoveRetry s
  | .wakeIn => Sys2Proof.Machine.execWakeIn s
  | .hostWakePulseEnd => Sys2Proof.Machine.execHostWakePulseEnd s
  | .hostWakeRelease v0 v1 => Sys2Proof.Machine.execHostWakeRelease v0 v1 s
  | .sillageMove v0 => Sys2Proof.Machine.execSillageMove v0 s
  | .alert v0 => Sys2Proof.Machine.execAlert v0 s
  | .alertRead v0 v1 v2 => Sys2Proof.Machine.execAlertRead v0 v1 v2 s
  | .alertRetry v0 => Sys2Proof.Machine.execAlertRetry v0 s
  | .arbRetry => Sys2Proof.Machine.execArbRetry s
  | .busStuck v0 v1 v2 => Sys2Proof.Machine.execBusStuck v0 v1 v2 s
  | .pwrCycleEnd v0 => Sys2Proof.Machine.execPwrCycleEnd v0 s
  | .railSettleEnd v0 v1 => Sys2Proof.Machine.execRailSettleEnd v0 v1 s
  | .clrStuck v0 v1 v2 => Sys2Proof.Machine.execClrStuck v0 v1 v2 s
  | .railCtrl v0 v1 => Sys2Proof.Machine.execRailCtrl v0 v1 s
  | .characterReceived v0 v1 => Sys2Proof.Machine.execCharacterReceived v0 v1 s
  | .frameIdle v0 => Sys2Proof.Machine.execFrameIdle v0 s
  | .rxFlush v0 v1 v2 => Sys2Proof.Machine.execRxFlush v0 v1 v2 s
  | .conversion v0 => Sys2Proof.Machine.execConversion v0 s
  | .sequenceStart v0 => Sys2Proof.Machine.execSequenceStart v0 s
  | .gpoPulseEnd v0 => Sys2Proof.Machine.execGpoPulseEnd v0 s
  | .arm v0 v1 => Sys2Proof.Machine.execArm v0 v1 s
  | .aqeArm => Sys2Proof.Machine.execAqeArm s
  | .force v0 v1 => Sys2Proof.Machine.execForce v0 v1 s
  | .stop v0 v1 => Sys2Proof.Machine.execStop v0 v1 s
  | .taggedChange v0 => Sys2Proof.Machine.execTaggedChange v0 s
  | .armTimeout => Sys2Proof.Machine.execArmTimeout s
  | .recordEnd => Sys2Proof.Machine.execRecordEnd s
  | .rearm => Sys2Proof.Machine.execRearm s
  | .trigOutPulseEnd => Sys2Proof.Machine.execTrigOutPulseEnd s
  | .segCmdFree v0 v1 => Sys2Proof.Machine.execSegCmdFree v0 v1 s
  | .recordMove v0 v1 => Sys2Proof.Machine.execRecordMove v0 v1 s
  | .chCfg v0 v1 v2 => Sys2Proof.Machine.execChCfg v0 v1 v2 s
  | .fire v0 v1 v2 => Sys2Proof.Machine.execFire v0 v1 v2 s
  | .offerTaken v0 v1 => Sys2Proof.Machine.execOfferTaken v0 v1 s
  | .fcapRead v0 v1 => Sys2Proof.Machine.execFcapRead v0 v1 s
  | .acapRead v0 v1 => Sys2Proof.Machine.execAcapRead v0 v1 s
  | .vbusValid => Sys2Proof.Machine.execVbusValid s
  | .vbusInvalid => Sys2Proof.Machine.execVbusInvalid s
  | .busReset v0 => Sys2Proof.Machine.execBusReset v0 s
  | .fsFallback => Sys2Proof.Machine.execFsFallback s
  | .suspend => Sys2Proof.Machine.execSuspend s
  | .resume => Sys2Proof.Machine.execResume s
  | .usbResumeWake => Sys2Proof.Machine.execUsbResumeWake s
  | .remoteWake => Sys2Proof.Machine.execRemoteWake s
  | .overcurrent v0 => Sys2Proof.Machine.execOvercurrent v0 s
  | .portPower v0 v1 => Sys2Proof.Machine.execPortPower v0 v1 s
  | .deviceRemoteWakeup v0 v1 => Sys2Proof.Machine.execDeviceRemoteWakeup v0 v1 s
  | .setConfiguration v0 => Sys2Proof.Machine.execSetConfiguration v0 s
  | .setFeatureEndpointHalt v0 => Sys2Proof.Machine.execSetFeatureEndpointHalt v0 s
  | .clearFeatureEndpointHalt v0 => Sys2Proof.Machine.execClearFeatureEndpointHalt v0 s
  | .regRead v0 => Sys2Proof.Machine.execRegRead v0 s
  | .regWrite v0 v1 => Sys2Proof.Machine.execRegWrite v0 v1 s
  | .hkpMailboxOut v0 v1 => Sys2Proof.Machine.execHkpMailboxOut v0 v1 s
  | .hkpMailboxIn v0 => Sys2Proof.Machine.execHkpMailboxIn v0 s
  | .fwInfo => Sys2Proof.Machine.execFwInfo s
  | .imgBegin => Sys2Proof.Machine.execImgBegin s
  | .imgData => Sys2Proof.Machine.execImgData s
  | .imgEnd v0 v1 => Sys2Proof.Machine.execImgEnd v0 v1 s
  | .mboxDone => Sys2Proof.Machine.execMboxDone s
  | .mboxTimeout => Sys2Proof.Machine.execMboxTimeout s
  | .replyDiscard => Sys2Proof.Machine.execReplyDiscard s
  | .outPacket v0 => Sys2Proof.Machine.execOutPacket v0 s
  | .ackDelay => Sys2Proof.Machine.execAckDelay s
  | .seqReset v0 v1 => Sys2Proof.Machine.execSeqReset v0 v1 s
  | .aonPllLock => Sys2Proof.Machine.execAonPllLock s
  | .warmResetHoldEnd v0 => Sys2Proof.Machine.execWarmResetHoldEnd v0 s
  | .lagHigh v0 => Sys2Proof.Machine.execLagHigh v0 s
  | .crcErr => Sys2Proof.Machine.execCrcErr s
  | .patrolOverdue => Sys2Proof.Machine.execPatrolOverdue s
  | .scrubPass v0 => Sys2Proof.Machine.execScrubPass v0 s
  | .tempDerate v0 => Sys2Proof.Machine.execTempDerate v0 s
  | .startBit v0 v1 => Sys2Proof.Machine.execStartBit v0 v1 s
  | .ocRelease v0 => Sys2Proof.Machine.execOcRelease v0 s

end Sys2Proof.Machine
end

