-- ==== Sys2Proof/Machine/Pins.lean ====
section
/-! DEFINITION. Machine/Pins.lean: what every output of LH-96 does in a state (R105, Table 4.5). A level is `some` while the
output is driven; `none` is high impedance. An open-drain output is never driven high. -/

namespace Sys2Proof.Machine

/-! ## Outputs that the AON power-on reset releases -/

/-- An output of the AON island: high-impedance while the AON power-on reset is asserted. -/
def aonPin (s : State) (level : Option Bool) : Option Bool := if s.pwr.porHeld then none else level

def pinCorePwrEn (s : State) : Option Bool := aonPin s (some s.pwr.corePwrEn)
def pinWakeHost (s : State) : Option Bool := aonPin s (some s.hub.wakeHost)
def pinTsyncOut (s : State) : Option Bool := aonPin s (some (tsyncOutPin s))

/-- An open-drain output, driven low while asserted. -/
def openDrain (s : State) (asserted : Bool) : Option Bool := aonPin s (if asserted then some false else none)

def pinIrq0 (s : State) : Option Bool := openDrain s !s.irq0.isEmpty
def pinIrq1 (s : State) : Option Bool := openDrain s !s.irq1.isEmpty
def pinSysPwrdn (s : State) : Option Bool := openDrain s s.pwr.sysPwrdn

/-- GPO0 to GPO7, TRIG_OUT, SENS_PWR_EN0 and 1, and the UARTs' driver enables: until their pages enable them. -/
def pinGpo (s : State) (k : Nat) : Option Bool := aonPin s (gpoPin s k)
def pinTrig (s : State) : Option Bool := aonPin s (pinTrigOut s)
def pinSensPwr (s : State) (r : Nat) : Option Bool := aonPin s (railPin s r)
def pinUartDe (s : State) (u : Nat) : Option Bool := aonPin s (dePin s u)

/-- Un_TX is driven; high while no character is being sent (R409). -/
def uartTxDriven (s : State) (u : Nat) : Bool := !s.pwr.porHeld && (s.uart u).driven && uartUsable s u

/-- SCL and SDA of a bus may be pulled low; otherwise both are released (R392). -/
def i2cDrives (s : State) (b : Nat) : Bool := !s.pwr.porHeld && i2cUsable s b

/-! ## Outputs that the core reset releases -/

/-- The core reset is released: not in PARK or OFF, and not during a power-up or a warm-reset hold. -/
def coreReleased (s : State) : Bool := s.coreOn && s.pwr.wait = .none

/-- The transmitter of port Ek, and of Accord lane n. -/
def ethDriven (s : State) (k : Nat) : Bool := coreReleased s && s.en (Pg.MAC k)
def aclDriven (s : State) (n : Nat) : Bool := coreReleased s && s.en (Pg.ACL n)

/-- NAND, LPDDR5 and QSPI: NAND and LPDDR5 come up in the BOOT stages DRAM and NAND. -/
def qspiDriven (s : State) : Bool := coreReleased s
def mediaDriven (s : State) : Bool := coreReleased s && s.pwr.image

/-- USB_DNn_PEN (R468, R470). -/
def pinPen (s : State) (n : Nat) : Option Bool := if coreReleased s then some (penPin s n) else none

/-- JTAG TDO is driven only while shifting; no command of the block shifts it. -/
def pinTdo (_ : State) : Option Bool := none

end Sys2Proof.Machine
end

