-- ==== Sys2Proof/Safety.lean ====
section
/-! DEFINITION. Safety.lean: what the claims about commands and steps are stated in: what the end of a command may still
change (`Settled`), that a command does an effect (`Does`), and the shown level conditions. -/

namespace Sys2Proof.Machine

/-! ## What the end of a command may touch -/

/-- A port without what it is sending: the end of a command may queue and start NOTIFY frames (R82, R179). -/
def portView (p : PortState) : PortState := { p with tx := [], cur := none, due := 0, told := 0, drr := {} }

/-- A tenant without its NOTIFY number and its token balances. -/
def tenView (t : Tenant) : Tenant := { t with tokens := [], notifySeq := 0 }

/-- The USB state without the packets and reports that wait or have left, and the wake request they make. -/
def usbView (u : UsbState) : UsbState :=
  { u with nseq := 0, inQueue := [], ep2 := [], lastIn := none, lastEp2 := none, toggles := [], rwakeReq := false }

/-- A stream without its credit (R176, R178). -/
def streamView (c : StreamCtx) : StreamCtx := { c with limit := 0, held := false, owed := false }

/-- Everything of the machine but registers, counters, interrupt delivery, credit, and what is being sent. -/
def coreView (s : State) : State :=
  { s with
    regs := [], ctrs := [], holdoffs := [], levels := [], irq0 := [], irq1 := [], ports := [],
    fratra := { s.fratra with streams := s.fratra.streams.map streamView, tenants := [] }
    usb := usbView s.usb }

/-- Counter addresses that deliveries count on: the LMF page, and NOTIFY_SENT, NOTIFY_DROP and IDLE_BYTES of a tenant. -/
def deliveryCtr (a : Nat) : Bool :=
  a / 0x1000 = Pg.LMF || decide (0x040 ≤ a / 0x1000) && (a % 0x1000 = 0x078 || a % 0x1000 = 0x080 || a % 0x1000 = 0x090)

/-- `t` is `s` but for interrupt flags set and what their deliveries and the streams' credit change (R81, R82, R176): no
register but IRQ_FLAG, no counter but those of deliveries, and nothing that a command works on. No flag falls, and the
flags that rise are those of `x`, page by bit. -/
structure Within (x : Nat → Nat → Prop) (s t : State) : Prop where
  core : coreView t = coreView s
  regs : ∀ a, a % 0x1000 ≠ Off.IRQ_FLAG →
    storeLook t.regs a (regReset a) = storeLook s.regs a (regReset a)
  flags : ∀ page n, s.bit page Off.IRQ_FLAG n = true → t.bit page Off.IRQ_FLAG n = true
  fresh : ∀ page n, t.bit page Off.IRQ_FLAG n = true → s.bit page Off.IRQ_FLAG n = true ∨ x page n
  ctrs : ∀ a, deliveryCtr a = false → storeLook t.ctrs a 0 = storeLook s.ctrs a 0
  ports : ∀ k, portView (t.port k) = portView (s.port k)
  tens : ∀ n, tenView (t.ten n) = tenView (s.ten n)

/-- The flag that a delivery may set of itself: EP2_DROP of the LMF page (R489). -/
def DropFlag (page n : Nat) : Prop := page = Pg.LMF ∧ n = 2

/-- `t` is `s` after deliveries alone. -/
def Delivered (s t : State) : Prop := Within DropFlag s t

/-- `t` is `s` at the end of a command: the flags of the level-sourced conditions that hold are set, their deliveries are
made, and the streams' credit follows (R75, R81, R82, R176). -/
def Settled (s t : State) : Prop := Within (fun page n => DropFlag page n ∨ (levelMask s page).bit n = true) s t

/-- Set flag bits of a page, without their delivery. -/
def raise (s : State) (page : Nat) (mask : Word) : State :=
  setReg s page Off.IRQ_FLAG (s.reg page Off.IRQ_FLAG ||| mask)

/-- The command completes with the effect `u`: `exec` answers a next state that is `u`, its level-sourced flags, the
deliveries and the streams' credit brought up to date. -/
def Does (c : Instr) (s u : State) : Prop := ∃ t, exec c s = .next t ∧ Settled u t

/-- The command completes: `exec` answers a next state. -/
def Completes (c : Instr) (s : State) : Prop := ∃ t, exec c s = .next t

/-- The command completes with a next state of which `P` holds. -/
def Reaches (c : Instr) (s : State) (P : State → Prop) : Prop := ∃ t, exec c s = .next t ∧ P t

/-- Nothing whose time the state holds falls due in the next CORE cycle: no alarm, poll task or ADC sequence in the AON tick that
the cycle may bring, no offer of the event fabric, no run of the acquisition engine, and no entry of the Timed Action Table (log
137). -/
def QuietCycle (s : State) : Prop :=
  let next := onHub s fun h => { h with subTick := 0, tick := (h.tick + 1) % 2 ^ 64 }
  (∀ a, alarmDue next a = false) ∧ (∀ t, taskDue next t = false) ∧ (∀ q, seqDue next q = false) ∧
    s.evf.offers = [] ∧ s.aqe.prof = none ∧ ∀ e ∈ s.tat.entries, e.2.status ≠ .armed

/-! ## Served accesses -/

/-- A write by `r` of a register is served: its path carries it, its page exists, and no check of Table 3.11 rejects it
(R63 to R66). -/
def Served (s : State) (r : Req) (page off : Nat) (w : Word) : Prop :=
  pathServed s r.path = true ∧ pathCode s r page = 0 ∧ ∃ b, blockOf page = some b ∧
    admitWrite s r b (page - blockPage b) page off w = 0 ∧ valueCode s r b (page - blockPage b) page off w = 0

/-- A read by `r` of a register is served (R63, R67). -/
def ServedRead (s : State) (r : Req) (page off : Nat) : Prop :=
  pathServed s r.path = true ∧ pathCode s r page = 0 ∧ ∃ b, blockOf page = some b ∧ readAllowed s r b page off = true

/-- A path's access has been answered without error, with the word `w` where it is a read. -/
def served (s : State) (r : Req) (w : Word) : State := answerAcc s r.path 0 w

/-- `s` with a written word in the software-writable fields of a register of block `b`, and nothing more (R72). -/
def stored (s : State) (b : Block) (page off : Nat) (w : Word) : State :=
  match rowAt b off with
  | some (row, _) => setReg s page off ((s.reg page off &&& ~~~ accMask .rw row) ||| (w &&& accMask .rw row))
  | none => s

/-! ## Whole-machine properties -/

/-- R75: on every page, each level-sourced condition that holds has its IRQ_FLAG bit at 1. -/
def LevelsShown (s : State) : Prop := ∀ page, levelMask s page &&& ~~~ s.reg page Off.IRQ_FLAG = 0

/-- A run is safe while no step of it ends in a fault or a refusal. -/
def SafeRun (s : State) : Prop := ∀ k, ∃ t, Host.Core.run Sys2Proof.core k s = Host.Outcome.next t

end Sys2Proof.Machine
end

