-- ==== Sys2Proof/Certificates/Slice0/Obligations.lean ====
section
/-! DEFINITION. Certificates/Slice0/Obligations.lean: what is claimed of the model, one definition per claim. Each docstring names the
rules of the manual that a claim follows and, after "Readings", the entries of the assumption log that it rests on. -/

open Sys2Proof Sys2Proof.Machine

/-! ## The machine as a whole -/

/-- Commands are taken first in, first out: a step at a queue whose front is `c` is `exec c` with the queue's rest. -/
def Obligations.StepTakesFront : Prop :=
  ∀ (c : Instr) (s : State), Machine.step { s with pending := c :: s.pending } = exec c s

/-- R26, on an empty queue (one CORE cycle, the model's choice of log 3) in which nothing else falls due: in each CORE cycle
Fleet Time, counted in 2⁻³² ns, advances by 1 ns and FT_ADDEND, modulo its 48-bit range of seconds, whatever carry the fraction
makes. Readings: log 3, 71, 137. -/
def Obligations.FleetTimeAdvances : Prop :=
  ∀ s : State, s.pending = [] → s.coreOn = true → QuietCycle s → s.ft.sub < 2 ^ 32 →
    ∃ t, Machine.step s = .next t ∧ t.ft.sub < 2 ^ 32 ∧
      (t.ft.ns : Int) * 2 ^ 32 + t.ft.sub =
        ((s.ft.ns : Int) * 2 ^ 32 + s.ft.sub + 2 ^ 32 + (s.reg Pg.TIME Off.TIME_FT_ADDEND).signed) %
          ((2 ^ 48 * 1000000000 : Int) * 2 ^ 32)

/-- R38, on an empty queue with core power off, in a cycle in which nothing else falls due: the AON tick rises by one every 20
CORE cycles, unless the island is held in reset; nothing else of the hub moves. Readings: log 3, 137. -/
def Obligations.AonTickCounts : Prop :=
  ∀ s : State, s.pending = [] → s.coreOn = false → QuietCycle s →
    ∃ t, Machine.step s = .next t ∧ t.pwr = s.pwr ∧ t.ft = s.ft ∧
      t.hub = if s.pwr.porHeld then s.hub
        else if s.hub.subTick < 19 then { s.hub with subTick := s.hub.subTick + 1 }
        else { s.hub with subTick := 0, tick := (s.hub.tick + 1) % 2 ^ 64 }

/-- What reset leaves: power state OFF with the AON power-on reset asserted and core power off, no command waiting, no
path answered, no counter counted, Fleet Time UNSET, USB_UP detached, and registers at their reset values, among them
PATH_EN with every path on (Table 3.14), PAGE_OWNER of the SEC page with SEC = 1 (R86) and EN of a page whose EN is
fixed at 1 (R79). That a run begins in OFF with the reset asserted is the model's choice (log 5). R105, Table 4.5:
while the AON power-on reset is asserted every output of the island is high-impedance; while the core reset is, those
of the core are. Readings: log 5, 139. -/
def Obligations.ResetState : Prop :=
  (State.reset.pwr.state = .off ∧ State.reset.pwr.porHeld = true ∧ State.reset.pwr.corePwrEn = false ∧
    State.reset.pending = [] ∧ State.reset.results = [] ∧ State.reset.regs = [] ∧ State.reset.ctrs = [] ∧
    State.reset.reg Pg.SYS Off.SYS_PATH_EN = 7 ∧ State.reset.reg Pg.SEC Off.PAGE_OWNER = 0x100 ∧ State.reset.en Pg.TIME = true ∧
    State.reset.ft.mode = .unset ∧ State.reset.usb.up = .detached) ∧
  (∀ s : State, s.pwr.porHeld = true →
    pinCorePwrEn s = none ∧ pinWakeHost s = none ∧ pinTsyncOut s = none ∧ pinIrq0 s = none ∧ pinIrq1 s = none ∧
      pinSysPwrdn s = none ∧ pinTrig s = none ∧ (∀ k, pinGpo s k = none) ∧ (∀ r, pinSensPwr s r = none) ∧
      ∀ u, pinUartDe s u = none ∧ uartTxDriven s u = false ∧ i2cDrives s u = false) ∧
  ∀ s : State, s.coreOn = false ∨ s.pwr.wait ≠ .none →
    (∀ n, pinPen s n = none) ∧ (∀ k, ethDriven s k = false ∧ aclDriven s k = false) ∧ qspiDriven s = false ∧
      mediaDriven s = false

/-- R75 as an invariant: every step keeps each level-sourced flag at 1 while its condition holds. -/
def Obligations.LevelsStayShown : Prop :=
  ∀ s t : State, LevelsShown s → Machine.step s = .next t → LevelsShown t

/-- R75's invariant holds at reset. Readings: log 5. -/
def Obligations.LevelsShownAtReset : Prop := LevelsShown State.reset

/-- Every command completes in every state, and no run of commands ends in a fault or a refusal: the spec gives every command of
the table its effect. Readings: log 2. -/
def Obligations.RunsNeverStop : Prop := (∀ (c : Instr) (s : State), Completes c s) ∧ ∀ s : State, SafeRun s

/-! ## The register window and SEC (chapter 03) -/

/-- R63: with LMF_ANY at 0 every LMF access whose tenant is not TC0 is rejected with PATH_OFF; with FRATRA_REG or LMF_REG at 0
every access on that path is; HKP and TAT accesses cannot be switched off. A read and a write of any register alike. -/
def Obligations.PathOff : Prop :=
  ∀ (s : State) (r : Req) (page off : Nat) (w : Word), page < 4096 → off < 4096 → off % 4 = 0 →
    pathServed s r.path = true →
    ((r.path = .lmf ∧ r.tenant % 64 ≠ 0 ∧ s.bit Pg.SYS Off.SYS_PATH_EN 2 = false) ∨
        (r.path = .lmf ∧ s.bit Pg.SYS Off.SYS_PATH_EN 1 = false) ∨
        (r.path = .fratra ∧ s.bit Pg.SYS Off.SYS_PATH_EN 0 = false) →
      Does (.registerWrite r (addr page off) w) s (rejectAcc s r page off 0x89 false) ∧
        Does (.counterRead r (addr page off)) s (rejectAcc s r page off 0x89 true)) ∧
    (r.path = .hkp ∨ r.path = .tat → pathCode s r page = 0)

/-- R6: a reserved page reads 0 at every offset, PAGE_ID among them, and ignores writes: the access changes nothing but SYS,
which counts it, records it in REJ_LAST and sets flag NO_PAGE, and it is answered NO_PAGE with the value 0. -/
def Obligations.ReservedPage : Prop :=
  ∀ (s : State) (r : Req) (page off : Nat) (w : Word), page < 4096 → off < 4096 → off % 4 = 0 →
    pathServed s r.path = true → pathCode s r page = 0 → blockOf page = none →
    let ignored (read : Bool) := answerAcc (raise (setReg (setReg (bump s Pg.SYS 0x060) Pg.SYS Off.SYS_REJ_LAST_ADDR
      (BitVec.ofNat 32 (addr page off))) Pg.SYS Off.SYS_REJ_LAST_INFO (accRecord s r off 0x84 read)) Pg.SYS 2) r.path 0x84 0
    Does (.registerWrite r (addr page off) w) s (ignored false) ∧
      Does (.counterRead r (addr page off)) s (ignored true) ∧
      Reaches (.counterRead r (addr page off)) s (fun t => (lastAnswer t r.path).value = 0)

/-- R65 and R68: a write that a check of Table 3.11 rejects is recorded in ERR_CODE of its page, or sets MORE there where one is
held; it is counted by path, recorded in REJ_LAST and sets flag REJECT; and no other register of any page changes. Readings: log
30. -/
def Obligations.WriteRejected : Prop :=
  ∀ (s : State) (r : Req) (page off : Nat) (w : Word) (b : Block), page < 4096 → off < 4096 → off % 4 = 0 →
    pathServed s r.path = true → pathCode s r page = 0 → blockOf page = some b →
    admitWrite s r b (page - blockPage b) page off w ≠ 0 →
    let code := admitWrite s r b (page - blockPage b) page off w
    let record := accRecord s r off code false
    Reaches (.registerWrite r (addr page off) w) s fun t =>
      t.reg page Off.ERR_CODE =
        (if s.fld page Off.ERR_CODE 7 0 = 0 then record else (s.reg page Off.ERR_CODE).setBit 31 true) ∧
      t.reg Pg.SYS Off.SYS_REJ_LAST_ADDR = BitVec.ofNat 32 (addr page off) ∧ t.reg Pg.SYS Off.SYS_REJ_LAST_INFO = record ∧
      t.bit Pg.SYS Off.IRQ_FLAG 0 = true ∧ lastAnswer t r.path = { code := code, value := 0 } ∧
      t.ctr Pg.SYS (0x040 + 8 * pathNum r.path) = min ctrMax (s.ctr Pg.SYS (0x040 + 8 * pathNum r.path) + 1) ∧
      ∀ q o, o < 4096 → o ≠ Off.IRQ_FLAG → (q, o) ≠ (page, Off.ERR_CODE) → (q, o) ≠ (Pg.SYS, Off.SYS_REJ_LAST_ADDR) →
        (q, o) ≠ (Pg.SYS, Off.SYS_REJ_LAST_INFO) → t.reg q o = s.reg q o

/-- R65 and R72: a served write of a register whose fields are all RW, on a page that does nothing more with it, stores the word
in the register's fields and leaves the rest as it was. R3: a read of ERR_CODE that is served returns it and clears it; nothing
else changes. R76: a read of a counter's low word returns its low 32 bits, latches its high 32 bits in the path's shadow of the
high word, and clears the counter. Readings: log 30. -/
def Obligations.RegisterAccess : Prop :=
  (∀ (s : State) (r : Req) (page off : Nat) (w : Word) (b : Block) (row : RegRow) (k : Nat), page < 4096 → off < 4096 →
    off % 4 = 0 → 0x100 ≤ off → Served s r page off w → blockOf page = some b → rowAt b off = some (row, k) →
    b ∈ [Block.sys, .clk, .fwp, .kvx, .ecc, .dram, .psq, .meas, .hkp] →
    Does (.registerWrite r (addr page off) w) s
      (served (setReg s page off ((s.reg page off &&& ~~~ accMask .rw row) ||| (w &&& accMask .rw row))) r 0)) ∧
  ((∀ (s : State) (r : Req) (page : Nat), page < 4096 → ServedRead s r page Off.ERR_CODE →
    Does (.errCodeRead r page) s (served (setReg s page Off.ERR_CODE 0) r (s.reg page Off.ERR_CODE))) ∧
  ∀ (s : State) (r : Req) (page off : Nat) (b : Block), page < 4096 → off < 4096 → ServedRead s r page off →
    blockOf page = some b → counterAt b off = some off →
    Does (.counterRead r (addr page off)) s
      (served (setCtr (setShadow s r.path page (off + 4) (BitVec.ofNat 32 (s.ctr page off / 2 ^ 32))) page off 0) r
        (BitVec.ofNat 32 (s.ctr page off))))

/-- Table 3.11, steps 2 to 7 as they apply to a register other than PAGE_OWNER on a page that is neither EVF nor SEC nor ACD nor
TEN: the owner, or TC0 with the secure attribute, passes; a page with SEC takes the secure attribute alone; a page in soft reset
takes PAGE_CTRL alone. R66: a served write of PAGE_OWNER stores OWNER, SEC and LOCK, and LOCK once 1 stays 1; while LOCK is 1,
or from a tenant other than TC0, the write is rejected, with LOCKED or OWNER_TC0. -/
def Obligations.PageOwnership : Prop :=
  (∀ (s : State) (r : Req) (b : Block) (inst page off : Nat) (w : Word),
    b ≠ .evf → b ≠ .sec → b ≠ .acd → b ≠ .ten → off ≠ Off.PAGE_OWNER →
    admitWrite s r b inst page off w =
      if reqTenant r ≠ (s.reg page Off.PAGE_OWNER).fld 5 0 ∧ ¬ (reqTenant r = 0 ∧ reqSec s r = true) then 0x80
      else if (s.reg page Off.PAGE_OWNER).bit 8 = true ∧ reqSec s r = false then 0x81
      else if page ∈ s.inReset ∧ off ≠ Off.PAGE_CTRL then 0x87 else 0) ∧
  ((∀ (s : State) (r : Req) (page : Nat) (w : Word), page < 4096 → Served s r page Off.PAGE_OWNER w →
    Does (.pageOwner r page w) s
      (served (setReg s page Off.PAGE_OWNER ((w &&& 0x813F) ||| (s.reg page Off.PAGE_OWNER &&& 0x8000))) r 0)) ∧
  ∀ (s : State) (r : Req) (page : Nat) (w : Word), page < 4096 → pathServed s r.path = true → pathCode s r page = 0 →
    (blockOf page).isSome = true →
    (reqTenant r ≠ 0 → Does (.pageOwner r page w) s (rejectAcc s r page Off.PAGE_OWNER 0x86 false)) ∧
    (reqTenant r = 0 → s.bit page Off.PAGE_OWNER 15 = true →
      Does (.pageOwner r page w) s (rejectAcc s r page Off.PAGE_OWNER 0x82 false)))

/-- R73, R75: a served write of IRQ_FLAG completes: it clears the bits written 1, but for those whose level condition holds; one
of IRQ_FORCE sets the bits written 1; one of IRQ_EN stores it. R81, R82: a flag that IRQ_FORCE sets while it is enabled, or that
is 1 and newly enabled, makes its page hold IRQ0_N asserted where it is routed to that pin, which can take it, and no hold-off
time runs. R81: a running hold-off timer that expires changes nothing of the machine but interrupt delivery; where a delivery is
owed, the page is pending and routed to pin IRQ0_N, which can take it, the page then holds that pin asserted. Readings: log 30. -/
def Obligations.InterruptRegisters : Prop :=
  ((∀ (s : State) (r : Req) (page : Nat) (w : Word) (b : Block), page < 4096 → Served s r page Off.IRQ_FLAG w →
    blockOf page = some b →
    Does (.irqFlag r page w) s (served (setReg s page Off.IRQ_FLAG
      (s.reg page Off.IRQ_FLAG &&& ~~~ (w &&& flagMask b &&& ~~~ storeLook s.levels page 0))) r 0)) ∧
  (∀ (s : State) (r : Req) (page : Nat) (w : Word) (b : Block), page < 4096 → Served s r page Off.IRQ_FORCE w →
    blockOf page = some b → Does (.irqForce r page w) s (served (raise s page (w &&& flagMask b)) r 0)) ∧
  ∀ (s : State) (r : Req) (page : Nat) (w : Word) (b : Block), page < 4096 → Served s r page Off.IRQ_EN w →
    blockOf page = some b →
    Does (.irqEn r page w) s (served (setReg s page Off.IRQ_EN (w &&& flagMask b)) r 0)) ∧
  (∀ (s : State) (r : Req) (page : Nat) (w : Word) (b : Block), page < 4096 → blockOf page = some b →
    s.bit page Off.IRQ_ROUTE 1 = true → destAvailable s page 1 = true → (s.holdoff page 1).running = false →
    (Served s r page Off.IRQ_FORCE w → w &&& flagMask b &&& s.reg page Off.IRQ_EN ≠ 0 →
      Reaches (.irqForce r page w) s fun t => page ∈ t.irq0) ∧
    (Served s r page Off.IRQ_EN w → w &&& flagMask b &&& ~~~ s.reg page Off.IRQ_EN &&& s.reg page Off.IRQ_FLAG ≠ 0 →
      Reaches (.irqEn r page w) s fun t => page ∈ t.irq0)) ∧
  ((∀ (s : State) (page dest : Nat), Does (.coalTimerExpire page dest) s s) ∧
  ∀ (s : State) (page : Nat), (s.holdoff page 1).running = true → (s.holdoff page 1).owed = true → s.irqPend page = true →
    s.bit page Off.IRQ_ROUTE 1 = true → destAvailable s page 1 = true →
    Reaches (.coalTimerExpire page 1) s fun t => page ∈ t.irq0)

/-- R79, R80: on a page whose EN is fixed an admitted write of PAGE_CTRL with EN = 0 is rejected whole with BAD_VALUE, SOFT_RST
set or not; elsewhere a served write without SOFT_RST stores EN and lets the block follow its change. -/
def Obligations.PageEnable : Prop :=
  (∀ (s : State) (r : Req) (page : Nat) (w : Word) (b : Block), page < 4096 → pathServed s r.path = true →
    pathCode s r page = 0 → blockOf page = some b → admitWrite s r b (page - blockPage b) page Off.PAGE_CTRL w = 0 →
    enFixed b = true → w.bit 0 = false →
    Does (.pageCtrlEn r page w) s (rejectAcc s r page Off.PAGE_CTRL 0x83 false) ∧
      Does (.softRst r page w) s (rejectAcc s r page Off.PAGE_CTRL 0x83 false)) ∧
  ∀ (s : State) (r : Req) (page : Nat) (w : Word) (b : Block), page < 4096 → Served s r page Off.PAGE_CTRL w →
    blockOf page = some b → w.bit 1 = false →
    let t := setReg s page Off.PAGE_CTRL ((s.reg page Off.PAGE_CTRL).setBit 0 (w.bit 0))
    (w.bit 0 = s.en page ∨ b ∈ [Block.evf, .adc, .bat, .meas, .ten, .ftl] → Does (.pageCtrlEn r page w) s (served t r 0)) ∧
    (w.bit 0 ≠ s.en page →
      Does (.pageCtrlEn r page w) s (served (enChanged t b (page - blockPage b) page (w.bit 0)) r 0))

/-- R78: a served write of SOFT_RST on a page not in soft reset starts one: every register of the page but PAGE_OWNER,
PAGE_CTRL, IRQ_EN, IRQ_ROUTE, the flags, journaled fields, those R57 keeps and those only the AON power-on reset returns (R118)
is at its reset value; SOFT_RST_DONE ends the reset, and changes nothing else. Readings: log 38, 115. -/
def Obligations.SoftReset : Prop :=
  (∀ (s : State) (r : Req) (page : Nat) (w : Word) (b : Block), page < 4096 → Served s r page Off.PAGE_CTRL w →
    blockOf page = some b → w.bit 1 = true → w.bit 0 = s.en page → page ∉ s.inReset →
    Reaches (.softRst r page w) s fun t => page ∈ t.inReset ∧
      ∀ off, off < 4096 → off % 4 = 0 → off ≠ Off.IRQ_FLAG → softMask s page (addr page off) = 0 →
        t.reg page off = regReset (addr page off)) ∧
  (∀ (s : State) (r : Req) (page : Nat) (w : Word) (b : Block), page < 4096 → Served s r page Off.PAGE_CTRL w →
    blockOf page = some b → w.bit 1 = true → w.bit 0 = s.en page → page ∉ s.inReset →
    b ∈ [Block.clk, .pwr, .rst, .steer, .kvx, .ftl, .nch, .ecc, .hlth, .dram, .acd, .acl, .meas, .usbh, .lmf, .hkp, .ten] →
    Reaches (.softRst r page w) s fun t =>
      (∀ q off, q < 4096 → off < 4096 → off % 4 = 0 → off ≠ Off.IRQ_FLAG → softMask s page (addr q off) = 0xFFFFFFFF →
        t.reg q off = s.reg q off) ∧
      t.ftl = s.ftl ∧ t.hub = s.hub ∧ t.pwr = s.pwr ∧ t.acd = s.acd ∧ t.sec = s.sec ∧ t.fratra.ops = s.fratra.ops) ∧
  ∀ (s : State) (page : Nat), Does (.softRstDone page) s { s with inReset := setDel s.inReset page }

/-- R87, R90: a served key command, or revocation, makes BUSY hold it with the slot, and the key of KS_DATA, as they stand;
nothing else changes until KEY_DONE. R87, R90: the end of a key command carries out its effect, empties KS_DATA, counts
KEY_OP_CNT and sets KEY_DONE. LOAD stores the key taken, GENERATE a random one (a free value), ZEROIZE ends the slot's VALID,
CHECK leaves the check value (0 where the slot is not VALID), a revocation blows its fuse. The hold of the tenant of an AES slot
follows (R231). Readings: log 7, 76. -/
def Obligations.KeyCommands : Prop :=
  (∀ (s : State) (r : Req) (w : Word),
    (Served s r Pg.SEC Off.SEC_KS_CMD w →
      let start (op : KeyOp) := served { s with sec := { s.sec with busy := some op } } r 0
      (w.fld 2 0 = 1 → Does (.load r w) s (start (.load s.ksIdx (ksKey s s.ksIdx)))) ∧
      (w.fld 2 0 = 2 → Does (.generate r w) s (start (.generate s.ksIdx))) ∧
      (w.fld 2 0 = 3 → Does (.zeroize r w) s (start (.zeroize s.ksIdx))) ∧
      (w.fld 2 0 = 4 → Does (.check_ r w) s (start (.check s.ksIdx)))) ∧
    (Served s r Pg.SEC Off.SEC_KEY_REV_CMD w → w.bit 8 = true →
      Does (.go r w) s (served
        { s with sec := { s.sec with busy := some (.revoke (w.fld 1 0) (!s.sec.revoked.getLsbD (w.fld 1 0))) } } r 0))) ∧
  (∀ (s : State) (fault : Bool),
    let fin (x : State) := raise (bump x Pg.SEC 0x050) Pg.SEC 1
    let base (x : SecState) : SecState := { x with rngFault := fault, busy := none, ksData := [] }
    let follow (x : State) (slot : Nat) := if slot < 64 then keyHoldCheck x slot else x
    (∀ slot key, s.sec.busy = some (.load slot key) → Does (.keyDone fault) s
      (fin (follow { s with sec := { base s.sec with slots := storeInsert s.sec.slots slot key } } slot))) ∧
    (∀ slot, s.sec.busy = some (.generate slot) → Does (.keyDone fault) s
      (fin (follow { s with
        freeCtr := s.freeCtr + 1
        sec := { base s.sec with
          slots := storeInsert s.sec.slots slot
            ((List.range (if slot < 64 then 64 else 32)).map (Config.randomKey s.freeCtr)) } } slot))) ∧
    (∀ slot, s.sec.busy = some (.zeroize slot) → Does (.keyDone fault) s
      (fin (follow { s with sec := { base s.sec with slots := storeErase s.sec.slots slot } } slot))) ∧
    (∀ slot, s.sec.busy = some (.check slot) → Does (.keyDone fault) s
      (fin { s with sec := { base s.sec with
        kcv := match storeFind s.sec.slots slot with
          | some k => beNat ((hmac256 k (List.replicate 16 0)).take 3)
          | none => 0 } })) ∧
    (∀ k blow, s.sec.busy = some (.revoke k blow) → Does (.keyDone fault) s
      (fin { s with sec := { base s.sec with
        revoked := if blow then s.sec.revoked ||| BitVec.ofNat 4 (2 ^ k) else s.sec.revoked } })) ∧
    (s.sec.busy = none → Does (.keyDone fault) s s))

/-- R88, R89: a served read of SESS_NONCE0 draws a fresh nonce (a free value) on the reading path. A served OPEN makes it stale,
and opens the session where the response is the one R88 computes; a mismatch counts as a failure, and the third in a row locks
out. CLOSE, the idle time and the lockout's end do what R89 gives. R89: an OPEN is judged in order: LOCKOUT in the lockout,
NONCE_STALE without a fresh nonce of its own path, NO_CREDENTIAL without a key in slot 128; each rejection makes the nonce
stale, and none counts as a failure. Readings: log 7, 33. -/
def Obligations.SecureSession : Prop :=
  ((∀ (s : State) (r : Req), ServedRead s r Pg.SEC (Off.SEC_SESS_NONCE 0) → s.sec.lockout = false →
    Reaches (.sessNonceRead r) s fun t =>
      t.sec = { s.sec with nonce := some (r.path, (List.range 4).flatMap fun k =>
        Word.bytes ((Config.nonce s.freeCtr).extractLsb' (96 - 32 * k) 32)) } ∧
        lastAnswer t r.path = { code := 0, value := (Config.nonce s.freeCtr).extractLsb' 96 32 } ∧
        (∀ k, 1 ≤ k → k ≤ 3 → t.shadow r.path Pg.SEC (Off.SEC_SESS_NONCE k) =
          (Config.nonce s.freeCtr).extractLsb' (96 - 32 * k) 32)) ∧
  (∀ (s : State) (r : Req) (w : Word), Served s r Pg.SEC Off.SEC_SESS_CTRL w → w.bit 0 = true → w.bit 1 = false →
    Reaches (.sessOpen r w) s fun t =>
      t.fld Pg.SEC Off.SEC_SESS_CTRL 15 8 =
        (if openingWrite s r .sec Off.SEC_SESS_CTRL w then s.fld Pg.SEC Off.SEC_SESS_CTRL 15 8 else w.fld 15 8) ∧
      (sessResponse s = sessExpected s ((s.sec.nonce.map Prod.snd).getD []) ((s.slotKey 128).getD []) →
        t.sec = { s.sec with session := true, failures := 0, nonce := none } ∧
          t.ctr Pg.SEC 0x040 = min ctrMax (s.ctr Pg.SEC 0x040 + 1)) ∧
      (sessResponse s ≠ sessExpected s ((s.sec.nonce.map Prod.snd).getD []) ((s.slotKey 128).getD []) →
        t.sec = { s.sec with failures := s.sec.failures + 1, nonce := none
                             lockout := s.sec.lockout || decide (3 ≤ s.sec.failures + 1) } ∧
          t.ctr Pg.SEC 0x048 = min ctrMax (s.ctr Pg.SEC 0x048 + 1) ∧ t.bit Pg.SEC Off.IRQ_FLAG 1 = true ∧
          (3 ≤ s.sec.failures + 1 → t.bit Pg.SEC Off.IRQ_FLAG 2 = true))) ∧
  (∀ (s : State) (r : Req) (w : Word), Served s r Pg.SEC Off.SEC_SESS_CTRL w → w.bit 0 = false → w.bit 1 = true →
    Does (.sessClose r w) s (served
      { setReg s Pg.SEC Off.SEC_SESS_CTRL ((s.reg Pg.SEC Off.SEC_SESS_CTRL &&& ~~~ 0xFF00) ||| (w &&& 0xFF00)) with
        sec := { s.sec with session := false } } r 0)) ∧
  ∀ s : State, Does .sessIdleTimeout s { s with sec := { s.sec with session := false } } ∧
    (s.sec.lockout = true → Does .lockoutEnd s { s with sec := { s.sec with lockout := false, failures := 0 } }) ∧
    (s.sec.lockout = false → Does .lockoutEnd s s)) ∧
  (∀ (s : State) (r : Req) (w : Word), pathServed s r.path = true → pathCode s r Pg.SEC = 0 →
    admitWrite s r .sec 0 Pg.SEC Off.SEC_SESS_CTRL w = 0 → w.bit 0 = true →
    let stale := { s with sec := { s.sec with nonce := none } }
    (s.sec.lockout = true → Does (.sessOpen r w) s (rejectAcc stale r Pg.SEC Off.SEC_SESS_CTRL 0x05 false)) ∧
    (s.sec.lockout = false → s.sec.nonce.map Prod.fst ≠ some r.path →
      Does (.sessOpen r w) s (rejectAcc stale r Pg.SEC Off.SEC_SESS_CTRL 0x04 false)) ∧
    (s.sec.lockout = false → s.sec.nonce.map Prod.fst = some r.path → storeFind s.sec.slots 128 = none →
      Does (.sessOpen r w) s (rejectAcc stale r Pg.SEC Off.SEC_SESS_CTRL 0x08 false)))

/-! ## Clocks, Fleet Time and the Timed Action Table (chapter 02) -/

/-- R25: the loss of REFCLK unlocks both PLLs, is counted, sets REF_LOSS and takes Fleet Time from any state but UNSET to FREE;
its return and the PLLs' locks are reported. R39: a temperature 10 °C or more from that of the last calibration starts a
recalibration, during which edges are tagged coarse; a smaller change does not; its end ends the coarse tags. Readings: log 2,
74. -/
def Obligations.ClockEvents : Prop :=
  (∀ s : State,
    (s.clk.refPresent = true →
      Reaches .refLoss s fun t =>
        t.clk = { s.clk with refPresent := false, coreLock := false, aonLock := false } ∧
        t.ft = { s.ft with mode := if s.coreOn = true ∧ s.ft.mode ≠ .unset then .free else s.ft.mode } ∧
        (s.coreOn = true → t.bit Pg.CLK Off.IRQ_FLAG 2 = true ∧
          t.ctr Pg.CLK 0x050 = min ctrMax (s.ctr Pg.CLK 0x050 + 1)) ∧
        (s.coreOn = true → s.ft.mode ≠ .unset → s.ft.mode ≠ .free → t.bit Pg.TIME Off.IRQ_FLAG 0 = true) ∧
        t.tat.entries = s.tat.entries ∧ t.hub = s.hub ∧ t.ftl = s.ftl ∧ t.pwr = s.pwr ∧
        ∀ page off, off < 0x1000 → off ≠ Off.IRQ_FLAG → t.reg page off = s.reg page off) ∧
    Does .refclkReturn s { s with clk := { s.clk with refPresent := true } } ∧
    (s.clk.refPresent = true → s.coreOn = true → Does (.pllRelock true) s { s with clk := { s.clk with coreLock := true } }) ∧
    (s.clk.refPresent = true → s.pwr.porHeld = false →
      Does (.pllRelock false) s { s with clk := { s.clk with aonLock := true } }) ∧
    (s.pwr.porHeld = false → s.pwr.wait = .aonPll →
      Does .aonPllLock s { s with clk := { s.clk with aonLock := s.clk.refPresent }, pwr := { s.pwr with wait := .offMin } }) ∧
    (s.pwr.porHeld = false → s.pwr.wait ≠ .aonPll →
      Does .aonPllLock s { s with clk := { s.clk with aonLock := s.clk.refPresent } })) ∧
  (∀ (s : State) (temp : Int),
    (10 ≤ (temp - s.clk.calTemp).natAbs →
      Does (.taggerRecalibrate temp) s { s with clk := { s.clk with recal := true, calTemp := temp } }) ∧
    ((temp - s.clk.calTemp).natAbs < 10 → Does (.taggerRecalibrate temp) s s) ∧
    Does .taggerRecalDone s { s with clk := { s.clk with recal := false } } ∧
    (s.clk.recal = true → ∀ phase, edgeTag s phase = s.hub.tick * 32) ∧
    (s.clk.recal = false → ∀ phase, phase < 32 → edgeTag s phase = s.hub.tick * 32 + phase))

/-- R28, R30, R52: a served FT_CMD steps Fleet Time by the signed 64-bit FT_STEP or sets it to FT_SET, then loads a
state, all at one cycle boundary; STEP_COUNT rises at a set and at a step of a time not seeded; every armed entry that
the move carries past is marked late and STEPPED, and one left ahead neither. R28, R30: an admitted FT_CMD that steps
and sets at once, or loads a reserved state, is rejected with BAD_VALUE. Readings: log 71, 72, 109. -/
def Obligations.FleetTimeCommands : Prop :=
  (∀ (s : State) (r : Req) (w : Word), Served s r Pg.TIME Off.TIME_FT_CMD w →
    let mode : FtMode := if w.bit 2 then modeOf (w.fld 6 4) else if w.bit 1 && s.ft.mode = .unset then .free else s.ft.mode
    let locks := w.bit 2 && (mode = .tsync || mode = .ptp)
    let marked (now : Nat) := s.tat.entries.map fun e =>
      (e.1, if e.2.status = .armed then
              if now < e.2.t then { e.2 with stepped := false, late := false }
              else if s.ft.ns < e.2.t then { e.2 with stepped := true, late := true } else e.2
            else e.2)
    (w.bit 0 = true →
      let now := (((s.ft.ns : Int) + (BitVec.append (s.reg Pg.TIME Off.TIME_FT_STEP_HI)
        (s.reg Pg.TIME Off.TIME_FT_STEP_LO)).toInt) % ((2 : Int) ^ 48 * 1000000000)).toNat
      Reaches (.step r w) s fun t =>
        t.ft = { s.ft with
          ns := now, mode := mode, seeded := s.ft.seeded && !locks
          stepCount := if s.ft.seeded then s.ft.stepCount else (s.ft.stepCount + 1) % 256 } ∧
        t.tat.entries = marked now ∧ t.bit Pg.TIME Off.IRQ_FLAG 1 = true ∧
        (mode ≠ s.ft.mode → t.bit Pg.TIME Off.IRQ_FLAG 0 = true) ∧
        t.ctr Pg.TIME 0x050 = min ctrMax (s.ctr Pg.TIME 0x050 + 1) ∧ t.clk = s.clk ∧ t.ftl = s.ftl) ∧
    (w.bit 0 = false → w.bit 1 = true →
      let now := (s.fld Pg.TIME Off.TIME_FT_SET_SEC_HI 15 0 * 2 ^ 32 + (s.reg Pg.TIME Off.TIME_FT_SET_SEC_LO).toNat) *
        1000000000 + (s.reg Pg.TIME Off.TIME_FT_SET_NS).toNat
      Reaches (.set r w) s fun t =>
        t.ft = { s.ft with
          ns := now, sub := 0, mode := mode, seeded := false, stepCount := (s.ft.stepCount + 1) % 256 } ∧
        t.tat.entries = marked now ∧ t.bit Pg.TIME Off.IRQ_FLAG 1 = true ∧
        (mode ≠ s.ft.mode → t.bit Pg.TIME Off.IRQ_FLAG 0 = true) ∧
        t.ctr Pg.TIME 0x050 = min ctrMax (s.ctr Pg.TIME 0x050 + 1) ∧ t.clk = s.clk ∧ t.ftl = s.ftl) ∧
    (w.bit 0 = false → w.bit 1 = false → w.bit 2 = true →
      Reaches (.stateLoad r w) s fun t =>
        t.ft = { s.ft with mode := modeOf (w.fld 6 4), seeded := s.ft.seeded && !locks } ∧
        t.tat.entries = s.tat.entries ∧ (mode ≠ s.ft.mode → t.bit Pg.TIME Off.IRQ_FLAG 0 = true) ∧
        t.clk = s.clk ∧ t.ftl = s.ftl)) ∧
  (∀ (s : State) (r : Req) (w : Word), pathServed s r.path = true → pathCode s r Pg.TIME = 0 →
    admitWrite s r .time 0 Pg.TIME Off.TIME_FT_CMD w = 0 →
    (w.bit 0 = true ∧ w.bit 1 = true) ∨ (w.bit 2 = true ∧ (w.fld 6 4 = 0 ∨ 5 ≤ w.fld 6 4)) →
    Does (.step r w) s (rejectAcc s r Pg.TIME Off.TIME_FT_CMD 0x83 false))

/-- R27: FT_ADDEND is a signed value from −4,294,967 to +4,294,967: a write of any other is rejected with BAD_VALUE, and one in
the range is stored. -/
def Obligations.FleetTimeRange : Prop :=
  ∀ (s : State) (r : Req) (w : Word), pathServed s r.path = true → pathCode s r Pg.TIME = 0 →
    admitWrite s r .time 0 Pg.TIME Off.TIME_FT_ADDEND w = 0 →
    (w.toInt < -4294967 ∨ 4294967 < w.toInt →
      Does (.registerWrite r (addr Pg.TIME Off.TIME_FT_ADDEND) w) s (rejectAcc s r Pg.TIME Off.TIME_FT_ADDEND 0x83 false)) ∧
    (-4294967 ≤ w.toInt → w.toInt ≤ 4294967 →
      Does (.registerWrite r (addr Pg.TIME Off.TIME_FT_ADDEND) w) s (served (setReg s Pg.TIME Off.TIME_FT_ADDEND w) r 0))

/-- R29, R41: a served read of FT_RD_NS returns the nanoseconds and latches seconds and fraction in the path's shadow;
one of word 0 of a ring entry returns it and latches the entry's other seven words (zeros where the entry was never
written), and a read of another word returns what was latched last, whichever entry it names. R35, R40: the carry into
the seconds field and a TSYNC_IN edge each put a correlation pair of the instant into the next ring entry, with the
next sequence number; the edge also captures Fleet Time, sets TSYNC_CAP and is judged against TSYNC_OFFSET, a good one
lengthening the run of good edges and a bad one ending it. R36: while the HKP image runs, four good edges with the
TSYNC discipline on take Fleet Time from FREE or HOLDOVER to TSYNC, and a bad one takes it out of TSYNC; the edge
changes no other state. R37: TSYNC_OUT pulses in the first cycle that lies ADV_NS before a PERIOD_MS instant while it
is enabled and gated in, and in no other, and ends high at TSYNC_OUT_END. R34: a Sync timeout takes PTP to TSYNC after
four good edges with the TSYNC discipline on, else to HOLDOVER where it is allowed, else to FREE. Readings: log 70,
71, 72, 73, 101, 110, 137. -/
def Obligations.FleetTimeReadsAndPairs : Prop :=
  ((∀ (s : State) (r : Req), ServedRead s r Pg.TIME Off.TIME_FT_RD_NS →
    let sec := s.ft.ns / 1000000000
    Does (.ftRdNs r) s (served
      (setShadow (setShadow s r.path Pg.TIME Off.TIME_FT_RD_SEC_LO (BitVec.ofNat 32 sec)) r.path Pg.TIME
        Off.TIME_FT_RD_SEC_HI (Word.place 15 0 (sec / 2 ^ 32) ||| Word.place 31 16 (s.ft.sub / 65536)))
      r (BitVec.ofNat 32 (s.ft.ns % 1000000000)))) ∧
  ∀ (s : State) (r : Req) (entry : Nat), entry < 64 → ServedRead s r Pg.TIME (Off.TIME_CORR_RING (8 * entry)) →
    let word (k : Nat) : Word := match storeFind s.ft.ring entry with
      | some c => corrWord c k
      | none => 0
    Reaches (.corrRingRead r entry) s fun t => lastAnswer t r.path = { code := 0, value := word 0 } ∧
      (∀ k, k < 7 → t.shadow r.path Pg.TIME (0x804 + 4 * k) = word (k + 1)) ∧ t.ft = s.ft ∧ t.hub = s.hub ∧ t.tat = s.tat) ∧
  (∀ (s : State) (r : Req) (entry k : Nat), entry < 64 → 1 ≤ k → k < 8 →
    ServedRead s r Pg.TIME (Off.TIME_CORR_RING (8 * entry + k)) →
    Does (.counterRead r (addr Pg.TIME (Off.TIME_CORR_RING (8 * entry + k)))) s
      (served s r (s.shadow r.path Pg.TIME (0x800 + 4 * k)))) ∧
  (∀ s : State, s.coreOn = true →
    let pair (src ns frac phase : Nat) : CorrPair :=
      { tick := s.hub.tick, phase := phase, coarse := s.clk.recal, seeded := s.ft.seeded, src := src, mode := s.ft.mode
        stepCount := s.ft.stepCount, seq := s.ft.pairSeq, ns := ns, frac := frac }
    (let hub : HubState := if s.pwr.porHeld then s.hub
        else if s.hub.subTick < 19 then { s.hub with subTick := s.hub.subTick + 1 }
        else { s.hub with subTick := 0, tick := (s.hub.tick + 1) % 2 ^ 64 }
     let count := (ftCounted s).ft
     (count.ns / 1000000000 ≠ s.ft.ns / 1000000000 → QuietCycle s → Reaches .ftSecond s fun t =>
      t.hub.tick = hub.tick ∧ t.ft = { count with
        ring := storeInsert s.ft.ring s.ft.ringNext
          { pair 0 (count.ns / 1000000000 * 1000000000) 0 (markerPhase { s with hub := hub }) with tick := hub.tick }
        ringNext := (s.ft.ringNext + 1) % 64, ringWrapped := s.ft.ringWrapped || s.ft.ringNext = 63
        pairSeq := (s.ft.pairSeq + 1) % 256 } ∧ t.tat.entries = s.tat.entries) ∧
     (count.ns / 1000000000 = s.ft.ns / 1000000000 → Does .ftSecond s s)) ∧
    ∀ phase, phase < 32 → s.pwr.porHeld = false →
      let good := nearSecond s.ft.ns (s.reg Pg.TIME Off.TIME_TSYNC_OFFSET).signed
        (s.fld Pg.TIME Off.TIME_TSYNC_CFG 15 4 * 1000)
      let run := if good then s.ft.goodRun + 1 else 0
      let fit := s.bit Pg.TIME Off.TIME_TSYNC_CFG 0 && decide (4 ≤ run)
      Reaches (.tsyncInEdge phase) s fun t =>
        t.ft.ns = s.ft.ns ∧ t.ft.sub = s.ft.sub ∧ t.ft.cap = s.ft.ns ∧ t.ft.goodRun = run ∧
        t.ft.lastTsyncTag = some (edgeTag s phase) ∧ t.ft.stepCount = s.ft.stepCount ∧
        t.ft.ring = storeInsert s.ft.ring s.ft.ringNext
          (pair 2 s.ft.ns (s.ft.sub / 65536) (if s.clk.recal then 0 else phase)) ∧
        t.ft.ringNext = (s.ft.ringNext + 1) % 64 ∧ t.ft.ringWrapped = (s.ft.ringWrapped || s.ft.ringNext = 63) ∧
        t.ft.pairSeq = (s.ft.pairSeq + 1) % 256 ∧
        t.ft.mode = (if s.pwr.image = false then s.ft.mode
          else if s.ft.mode = .free ∨ s.ft.mode = .holdover then (if fit then .tsync else s.ft.mode)
          else if s.ft.mode = .tsync ∧ fit = false then
            (if s.bit Pg.TIME Off.TIME_PTP_CFG 28 = true then .holdover else .free)
          else s.ft.mode) ∧
        t.bit Pg.TIME Off.IRQ_FLAG 2 = true ∧ t.ctr Pg.TIME 0x040 = min ctrMax (s.ctr Pg.TIME 0x040 + 1) ∧
        (good = false → t.bit Pg.TIME Off.IRQ_FLAG 3 = true ∧ t.ctr Pg.TIME 0x048 = min ctrMax (s.ctr Pg.TIME 0x048 + 1)) ∧
        t.clk = s.clk ∧ t.ftl = s.ftl ∧ t.tat.entries = s.tat.entries) ∧
  (∀ s : State,
    (tsyncOutOn s = true → tsyncOutDue s = true →
      Does .tsyncOutPulse s (pulse { s with ft := { s.ft with outHigh := true } } [81])) ∧
    (tsyncOutOn s = false ∨ tsyncOutDue s = false → Does .tsyncOutPulse s s) ∧
    Does .tsyncOutEnd s { s with ft := { s.ft with outHigh := false } } ∧
    (s.pwr.image = true → s.ft.mode = .ptp →
      let m : FtMode := if s.bit Pg.TIME Off.TIME_TSYNC_CFG 0 = true ∧ 4 ≤ s.ft.goodRun then .tsync
        else if s.bit Pg.TIME Off.TIME_PTP_CFG 28 = true then .holdover else .free
      Reaches .syncTimeout s fun t =>
        t.ft = { s.ft with mode := m, seeded := if m = .tsync then false else s.ft.seeded, lockRun := 0, syncHeld := none } ∧
          t.bit Pg.TIME Off.IRQ_FLAG 0 = true ∧ t.tat.entries = s.tat.entries ∧ t.clk = s.clk ∧ t.ftl = s.ftl) ∧
    (s.pwr.image = false ∨ s.ft.mode ≠ .ptp → Does .syncTimeout s s))

/-- R48, R50: READ copies entry TAT_IDX into the window registers; WRITE replaces the entry by the staged one, whose SEC only
TC0 with the secure attribute gives it; CANCEL makes it CANCELLED, and withdraws the swap staged behind it; a TAT_CFG write is
stored. R48: a WRITE is rejected, judged in order, with POOL_OWNED in the hardware pool except for TC0 with the secure
attribute, BAD_KIND, BAD_ARG, and PAST without FORCE_PAST; a CANCEL in the pool with POOL_OWNED; R50: a move of POOL_BASE over
an armed entry with POOL_BUSY. -/
def Obligations.TatCommands : Prop :=
  (∀ (s : State) (r : Req) (w : Word),
    (Served s r Pg.TAT Off.TAT_TAT_CMD w →
      let e := s.entry s.tatIdx
      (w.fld 1 0 = 1 → Reaches (.read r w) s fun t =>
        t.reg Pg.TAT Off.TAT_TE_T_NS = BitVec.ofNat 32 (e.t % 1000000000) ∧
        t.reg Pg.TAT Off.TAT_TE_T_SEC_LO = BitVec.ofNat 32 (e.t / 1000000000) ∧
        t.reg Pg.TAT Off.TAT_TE_T_SEC_HI = Word.place 15 0 (e.t / 1000000000 / 2 ^ 32) ∧
        t.reg Pg.TAT Off.TAT_TE_CTRL = (Word.place 2 0 e.kind ||| flagBit 3 e.persist ||| flagBit 4 e.skipLate |||
          Word.place 13 8 e.actAs ||| flagBit 14 e.sec ||| Word.place 18 16 (statusNum e.status)) ∧
        t.reg Pg.TAT Off.TAT_TE_ARG_LO = e.argLo ∧ t.reg Pg.TAT Off.TAT_TE_ARG_HI = e.argHi ∧
        t.reg Pg.TAT Off.TAT_TE_PERIOD_MS = BitVec.ofNat 32 e.periodMs ∧ t.tat = s.tat ∧ t.ft = s.ft ∧ t.ftl = s.ftl) ∧
      (w.fld 1 0 = 2 → Does (.write r w) s (served
        (setEntry s s.tatIdx { stagedEntry s with
          sec := (stagedEntry s).sec && reqTenant r = 0 && reqSec s r }) r 0)) ∧
      (w.fld 1 0 = 3 →
        let t := setEntry s s.tatIdx { e with status := .cancelled }
        Does (.cancel r w) s (served
          (if e.status = .armed ∧ e.kind = 2 then discardSwap t s.tatIdx (e.argHi.toNat % 64) (e.argLo.toNat % 65536) false
            else t)
          r 0))) ∧
    (Served s r Pg.TAT Off.TAT_TAT_CFG w →
      let t := setReg s Pg.TAT Off.TAT_TAT_CFG ((s.reg Pg.TAT Off.TAT_TAT_CFG &&& ~~~ 0xFF03) ||| (w &&& 0xFF03))
      Does (.tatCfg r w) s (served { t with tat := { t.tat with passDue := t.tat.passDue || tatPaused t } } r 0))) ∧
  (∀ (s : State) (r : Req) (w : Word), pathServed s r.path = true → pathCode s r Pg.TAT = 0 →
    let e := stagedEntry s
    let owned := s.fld Pg.TAT Off.TAT_TAT_CFG 15 8 ≤ s.tatIdx ∧ ¬ (reqTenant r = 0 ∧ reqSec s r = true)
    let bad := argBad e = true ∨ 999999999 < (s.reg Pg.TAT Off.TAT_TE_T_NS).toNat
    (admitWrite s r .tat 0 Pg.TAT Off.TAT_TAT_CMD w = 0 →
      (w.fld 1 0 = 2 →
        (owned → Does (.write r w) s (rejectAcc s r Pg.TAT Off.TAT_TAT_CMD 0x04 false)) ∧
        (¬ owned → e.kind = 7 → Does (.write r w) s (rejectAcc s r Pg.TAT Off.TAT_TAT_CMD 0x02 false)) ∧
        (¬ owned → e.kind ≠ 7 → bad → Does (.write r w) s (rejectAcc s r Pg.TAT Off.TAT_TAT_CMD 0x03 false)) ∧
        (¬ owned → e.kind ≠ 7 → ¬ bad → e.t ≤ s.ft.ns → w.bit 4 = false →
          Does (.write r w) s (rejectAcc s r Pg.TAT Off.TAT_TAT_CMD 0x01 false))) ∧
      (w.fld 1 0 = 3 → owned → Does (.cancel r w) s (rejectAcc s r Pg.TAT Off.TAT_TAT_CMD 0x04 false))) ∧
    (admitWrite s r .tat 0 Pg.TAT Off.TAT_TAT_CFG w = 0 →
      (∃ i e, (i, e) ∈ s.tat.entries ∧ e.status = .armed ∧
        min (s.fld Pg.TAT Off.TAT_TAT_CFG 15 8) (w.fld 15 8) ≤ i ∧ i < max (s.fld Pg.TAT Off.TAT_TAT_CFG 15 8) (w.fld 15 8)) →
      Does (.tatCfg r w) s (rejectAcc s r Pg.TAT Off.TAT_TAT_CFG 0x05 false)))

/-- R44, R45, R53: while the table evaluates, TAT_FIRE and, after a pause, LATENESS_PASS complete with what every
entry due does, in ascending index order. R44, R51 to R53, R55: an armed entry without action fires once Fleet Time is
at or after its T: FIRED is set and counted, a fire record written, a one-shot entry DONE, a periodic one advanced
past the present and armed. After a pause the lateness pass does so with LATE and the count of instants passed, or
skips the entry under SKIP_LATE. While the table does not evaluate, neither does anything. R47: the oldest REG_WRITE
on its way to the island is judged and applied on arrival, as an access of its ACT_AS and SEC on the TAT path, and
then its one fire record is written, with the Fleet Time of its firing and whether the access was rejected, which sets
ACT_ERR; with none on its way nothing happens. Readings: log 30, 40, 41, 42, 111, 137. -/
def Obligations.TatFires : Prop :=
  (∀ s : State,
    (tatRuns s = true → s.tat.passDue = false → Does .tatFire s (evaluateAt s.ft.ns s)) ∧
    (tatRuns s = true → s.tat.passDue = true →
      let late := s.tat.entries.map fun e =>
        (e.1, if e.2.status = .armed ∧ e.2.t ≤ s.ft.ns then { e.2 with late := true } else e.2)
      Does .latenessPass s (evaluateAt s.ft.ns { s with tat := { s.tat with passDue := false, entries := late } })) ∧
    (tatRuns s = false → Does .tatFire s s ∧ Does .latenessPass s s) ∧
    (s.tat.passDue = false → Does .latenessPass s s) ∧
    (s.tat.aonWrites = [] → Does .aonActionArrival s s)) ∧
  (∀ (s : State) (i : Nat) (e : TatEntry), tatRuns s = true → s.tat.entries = [(i, e)] → e.status = .armed →
    e.t ≤ s.ft.ns → e.kind = 0 → e.late = false →
    let passed := if e.periodMs = 0 then 1 else (s.ft.ns - e.t) / (e.periodMs * 1000000) + 1
    let after (missed : Nat) : TatEntry :=
      if e.periodMs = 0 then { e with missed := missed, late := false, stepped := false, status := .done }
      else { e with missed := missed, late := false, stepped := false, t := e.t + passed * (e.periodMs * 1000000) }
    let record (late skipped : Bool) (missed : Nat) : FireRec :=
      { idx := i, late := late, skipped := skipped, stepped := e.stepped, err := false, missed := missed, ns := s.ft.ns
        kind := 0, seq := s.tat.fireSeq }
    let recorded (x : TatState) (r : FireRec) : TatState :=
      { x with ring := storeInsert x.ring x.ringNext r, ringNext := (x.ringNext + 1) % 64
               fireSeq := (x.fireSeq + 1) % 256, last := some r, eventLog := x.eventLog ++ [r] }
    let fired (x : TatState) : State := { s with tat := x }
    let passing : TatState := { s.tat with entries := [(i, after passed)], passDue := false }
    (s.tat.passDue = false →
      Does .tatFire s (raise (bump
        (fired (recorded { s.tat with entries := [(i, after 0)] } (record false false 0))) Pg.TAT 0x040) Pg.TAT 1)) ∧
    (s.tat.passDue = true → e.skipLate = false →
      Does .latenessPass s (raise (bump (bump
        (fired (recorded passing (record true false passed))) Pg.TAT 0x040) Pg.TAT 0x048) Pg.TAT 3)) ∧
    (s.tat.passDue = true → e.skipLate = true →
      Does .latenessPass s (raise (bump
        (fired (recorded passing (record true true passed))) Pg.TAT 0x050) Pg.TAT 4)) ∧
    (s.tat.passDue = true → Does .tatFire s s)) ∧
  (∀ (s : State) (a : AonAction) (rest : List AonAction), s.tat.aonWrites = a :: rest →
    let judged := writeJudged { s with tat := { s.tat with aonWrites := rest } }
      { path := .tat, tenant := a.actAs, sec := a.sec } a.address a.value
    ((lastAnswer judged .tat).code = 0 → Does .aonActionArrival s (fireRecord judged
      { idx := a.idx, late := a.late, skipped := false, stepped := a.stepped, err := false, missed := a.missed
        ns := a.firedNs, kind := 6, seq := 0 })) ∧
    ((lastAnswer judged .tat).code ≠ 0 → Reaches .aonActionArrival s fun t => t.bit Pg.TAT Off.IRQ_FLAG 3 = true ∧
      t.tat.last.map (fun r => (r.idx, r.err, r.ns)) = some (a.idx, true, a.firedNs)))

/-! ## Power, reset, start-up (chapters 01, 04) and the Harvest (chapter 11) -/

/-- R94, R96, R97: the core power handshake. The release of the AON power-on reset samples the straps, opens the
sillage log and has the tagger recalibrate (R39); PGOOD_CORE awaited ends the attempt well, with the retries made in
PWR_STAT; its timeout, or PGOOD_CORE stuck high while a power-up is due, makes it fail, and another attempt follows
while retries are left; PGOOD_CORE stuck high at any other time only sets PGOOD_STUCK_SEEN; the release of the core
reset writes RST_CAUSE with the causes gathered, the wakes of PARK and how the machine last went down (R119), and
starts the boot ROM, or waits for RESET_N. Readings: log 4, 95, 96, 140. -/
def Obligations.PowerHandshake : Prop :=
  ∀ s : State,
    let cause : Word := s.pwr.cause.setWidth 32 ||| flagBit 2 (decide (s.pwr.bootWake ≠ 0)) |||
      Word.place 9 8 (match s.pwr.lastDown with
        | .settle => 1
        | .harvest => 2
        | _ => 0) ||| Word.place 20 16 s.pwr.bootWake.toNat
    (∀ straps, s.pwr.porHeld = true → Does (.aonPorRelease straps) s (sillAdd
      { s with clk := { s.clk with recal := true }
               pwr := { s.pwr with
                 porHeld := false, straps := straps, wait := .aonPll, cause := if s.pwr.porByPin then 2 else 1 } } 6 [5])) ∧
    (s.pwr.porHeld = false → s.pwr.corePwrEn = false → s.pwr.pgood = false → s.pwr.wait = .offMin → s.pwr.state = .boot →
      Does .powerUp s { s with pwr := { s.pwr with corePwrEn := true, sysPwrdn := false, wait := .pgood } }) ∧
    (s.pwr.wait = .pgood →
      let stat := ((s.reg Pg.PWR Off.PWR_PWR_STAT).setFld 11 8 s.pwr.attempts).setBit 13 false
      Does .pgoodCoreRise s
        (raise { setReg s Pg.PWR Off.PWR_PWR_STAT stat with
            pwr := { s.pwr with pgood := true, attempts := 0, wait := .pll } } Pg.PWR (if s.pwr.attempts = 0 then 0 else 2))) ∧
    (s.pwr.wait ≠ .pgood → Does .pgoodCoreRise s { s with pwr := { s.pwr with pgood := true } }) ∧
    (s.pwr.wait = .pgood → s.pwr.attempts < s.fld Pg.PWR Off.PWR_PWR_SEQ 18 16 →
      Does .pgoodTimeout s
        { s with pwr := { s.pwr with corePwrEn := false, attempts := s.pwr.attempts + 1, wait := .retry } }) ∧
    (s.pwr.wait = .pgood → s.fld Pg.PWR Off.PWR_PWR_SEQ 18 16 ≤ s.pwr.attempts →
      Reaches .pgoodTimeout s fun t => t.pwr.state = .park ∧ t.pwr.corePwrEn = false ∧ t.pwr.attempts = 0 ∧
        t.bit Pg.PWR Off.PWR_PWR_STAT 13 = true ∧ t.hub.wakeHost = true) ∧
    (s.pwr.wait = .retry → Does .retryWaitEnd s { s with pwr := { s.pwr with wait := .offMin } }) ∧
    (powerDue s = true → s.pwr.pgood = true → s.pwr.attempts < s.fld Pg.PWR Off.PWR_PWR_SEQ 18 16 →
      Does .pgoodStuck s
        { setReg s Pg.PWR Off.PWR_PWR_STAT ((s.reg Pg.PWR Off.PWR_PWR_STAT).setBit 12 true) with
          pwr := { s.pwr with corePwrEn := false, attempts := s.pwr.attempts + 1, wait := .retry } }) ∧
    (powerDue s = false → s.pwr.pgood = true → s.pwr.porHeld = false → s.pwr.corePwrEn = false → Does .pgoodStuck s
      (setReg s Pg.PWR Off.PWR_PWR_STAT ((s.reg Pg.PWR Off.PWR_PWR_STAT).setBit 12 true))) ∧
    (s.pwr.wait = .pll → s.pwr.resetN = true → Does .coreResetRelease s
      { s with clk := { s.clk with coreLock := s.clk.refPresent }, pwr := { s.pwr with wait := .hold } }) ∧
    (s.pwr.wait = .pll → s.pwr.resetN = false → imageCopies s ≠ [] → Does .coreResetRelease s
      { setReg (setReg s Pg.RST Off.RST_RST_CAUSE cause) Pg.RST Off.RST_BOOT_STAGE
          ((s.reg Pg.RST Off.RST_BOOT_STAGE).setFld 3 0 1) with
        clk := { s.clk with coreLock := s.clk.refPresent }
        pwr := { s.pwr with
          wait := .none, tried := 0, image := false, usbWait := false, discovered := false, cause := 0, bootWake := 0 } }) ∧
    (s.pwr.wait = .pll → s.pwr.resetN = false → imageCopies s = [] → Reaches .coreResetRelease s fun t =>
      t.pwr.wait = .none ∧ t.pwr.usbWait = true ∧ t.hub.wakeHost = true ∧ t.fld Pg.RST Off.RST_BOOT_STAGE 3 0 = 3 ∧
        t.reg Pg.RST Off.RST_RST_CAUSE = cause)

/-- R31, R96, R119: a power-up that is due begins BOOT: CORE_PWR_EN is asserted and PGOOD_CORE awaited; the wakes of
PARK are kept for RST_CAUSE; BOOT_STAGE is POWER; Fleet Time is seeded from its journal by the AON ticks since, as
FREE, or stays UNSET where none is held. R107, R108, Table 4.7: the boot ROM accepts the first copy that passes every
check and goes on to DRAM, with SEC_STAT, BOOT_VER and IMAGE_INFO telling which and the watchdog armed as WDT_CFG
says; a copy that fails leaves its code in BOOT_STAGE FAIL, and the next copy, or USB, follows. An image fails whose
magic is wrong, whose public key is not that of its fused hash, whose key is revoked, whose version lies below the
floor or whose ECDSA signature does not verify. Readings: log 95, 97, 102, 139, 143. -/
def Obligations.BootBegins : Prop :=
  (∀ s : State, s.pwr.porHeld = false → s.pwr.corePwrEn = false → s.pwr.pgood = false → s.pwr.state ≠ .boot →
    (s.pwr.wait = .offMin ∨ (s.pwr.state = .park ∧ s.pwr.wakeLatch ≠ 0 ∧ s.pwr.wait = .none)) →
    let wake := if s.pwr.state = .park then s.pwr.wakeLatch else 0
    Reaches .powerUp s fun t =>
      t.pwr = { s.pwr with
        state := .boot, wakeLatch := 0, bootWake := wake, corePwrEn := true, sysPwrdn := false, wait := .pgood
        needRecovery := s.pwr.needRecovery || s.pwr.lastDown = .harvest || s.pwr.lastDown = .unclean } ∧
      t.fld Pg.RST Off.RST_BOOT_STAGE 3 0 = 0 ∧
      (∀ j, s.ft.journal = some j → t.ft.ns = (j.ns + (s.hub.tick - j.tick) * 20) % (2 ^ 48 * 1000000000) ∧
        t.ft.sub = j.sub ∧ t.ft.seeded = true ∧ t.ft.stepCount = j.stepCount ∧
        t.ft.mode = (if j.mode = .unset then .unset else .free)) ∧
      (s.ft.journal = none → t.ft.ns = 0 ∧ t.ft.mode = .unset ∧ t.ft.seeded = false)) ∧
  (∀ (s : State) (i : ImageRead) (source copy : Nat), romRuns s = true → s.pwr.usbWait = false →
    (imageCopies s)[s.pwr.tried]? = some (source, copy) →
    let j := copyRead s source copy i
    (imageFault s j = 0 → Reaches (.imageVerify i) s fun t =>
      t.pwr.image = true ∧ t.pwr.tried = s.pwr.tried + 1 ∧ t.pwr.watchdog = s.bit Pg.RST Off.RST_WDT_CFG 16 ∧
      t.reg Pg.SEC Off.SEC_SEC_STAT = (flagBit 0 true ||| Word.place 2 1 source ||| Word.place 5 4 (imgKeyIdx j)) ∧
      t.reg Pg.SEC Off.SEC_BOOT_VER = Word.place 15 0 (imgVersion j) ∧
      t.reg Pg.RST Off.RST_IMAGE_INFO = (Word.place 0 0 copy ||| Word.place 15 8 (s.pwr.tried + 1)) ∧
      t.fld Pg.RST Off.RST_BOOT_STAGE 3 0 = 4 ∧ t.usb.hubStarted = true ∧
      (0 < s.pwr.tried → t.bit Pg.RST Off.IRQ_FLAG 1 = true)) ∧
    (imageFault s j ≠ 0 → Reaches (.imageVerify i) s fun t =>
      t.pwr.image = false ∧ t.pwr.tried = s.pwr.tried + 1 ∧ t.fld Pg.RST Off.RST_BOOT_STAGE 15 8 = imageFault s j ∧
      t.fld Pg.RST Off.RST_BOOT_STAGE 3 0 = (if s.pwr.tried + 1 < (imageCopies s).length then 1 else 3))) ∧
  (∀ (s : State) (i : ImageRead),
    (imgMagic i ≠ 0x4C484B50 → imageFault s i = 1) ∧
    (sha256 (imgPubkey i) ≠ s.bootKey (imgKeyIdx i) → imageFault s i ≠ 0) ∧
    (s.sec.revoked.getLsbD (imgKeyIdx i) = true → imageFault s i ≠ 0) ∧
    (imgVersion i < Config.versionFloor.toNat → imageFault s i ≠ 0) ∧ (imgSigOk i = false → imageFault s i ≠ 0))

/-- R111, R237, R314: discovery of the population, recovery where it is needed, and RUN entry end BOOT: the stages MAP
and RUN are reached, the Timed Action Table's persistent entries are loaded, requests are admitted from RUN on, and
BOOT_STAGE tells the time BOOT took. Readings: log 98, 102, 134. -/
def Obligations.BootEnds : Prop :=
  ∀ s : State, s.pwr.state = .boot →
    (∀ pop, s.pwr.image = true → s.pwr.discovered = false → Reaches (.populationDiscovery pop) s fun t =>
      t.pwr = { s.pwr with discovered := true } ∧
      t.fld Pg.RST Off.RST_BOOT_STAGE 3 0 = (if s.pwr.needRecovery then 6 else 7) ∧
      (s.pwr.needRecovery = false → t.tat.loaded = true) ∧ t.ftl.formatted = true ∧ t.hrv.rateMBs = pop.hrvRate) ∧
    (∀ found, s.pwr.discovered = true → s.pwr.needRecovery = true → Reaches (.recovery found) s fun t =>
      t.pwr.needRecovery = false ∧ t.pwr.lastDown = .settle ∧ t.tat.loaded = true ∧
      t.fld Pg.RST Off.RST_BOOT_STAGE 3 0 = 7) ∧
    (s.pwr.image = true → s.pwr.discovered = true → s.pwr.needRecovery = false → s.tat.loaded = true →
      passDeferred s = true ∨ s.tat.passDue = false → Reaches .runEntry s fun t =>
      t.pwr.state = .run ∧ t.fratra.hold = false ∧ t.fld Pg.RST Off.RST_BOOT_STAGE 3 0 = 8 ∧
      t.fld Pg.RST Off.RST_BOOT_STAGE 31 16 = min 0xFFFF (s.fratra.coreUs / 1000)) ∧
    (s.pwr.image = false → Does .runEntry s s)

/-- R112: PARK written in RUN starts a park settle, which admits no request; it is rejected with NOT_RUN outside RUN and with
SETTLING while a settle runs. A warm-reset cause (WARM, the watchdog, RESET_N) in RUN starts a warm settle and is remembered for
RST_CAUSE; during a park settle it turns it into a warm settle, which ends in warm reset; during a warm settle it does nothing.
-/
def Obligations.SettleStarts : Prop :=
  ∀ s : State,
    let settling (warm : Bool) : Settle := { warm := warm, startTick := s.hub.tick }
    let causes (bit : BitVec 7) (x : Settle) (hold : Bool) : State :=
      { s with fratra := { s.fratra with hold := hold }
               pwr := { s.pwr with cause := s.pwr.cause ||| bit, settle := some x } }
    let warmed (bit : BitVec 7) (byRst : Bool) (u : State) : Prop :=
      (s.pwr.settle = none → u = causes bit { settling true with byRst := byRst } true) ∧
      (∀ x, s.pwr.settle = some x → x.warm = false →
        u = causes bit { x with warm := true, byRst := x.byRst || byRst } s.fratra.hold) ∧
      (∀ x, s.pwr.settle = some x → x.warm = true → u = s)
    (∀ r w, Served s r Pg.PWR Off.PWR_PWR_CMD w → w.bit 0 = true → Does (.park r w) s (served
      { s with fratra := { s.fratra with hold := true }
               pwr := { s.pwr with settle := some { settling false with byPwr := true } } } r 0)) ∧
    (∀ r w, pathServed s r.path = true → pathCode s r Pg.PWR = 0 → admitWrite s r .pwr 0 Pg.PWR Off.PWR_PWR_CMD w = 0 →
      w.bit 0 = true →
      (s.pwr.state ≠ .run → Does (.park r w) s (rejectAcc s r Pg.PWR Off.PWR_PWR_CMD 0x01 false)) ∧
      (s.pwr.state = .run → s.pwr.settle.isSome = true →
        Does (.park r w) s (rejectAcc s r Pg.PWR Off.PWR_PWR_CMD 0x02 false)) ∧
      (s.pwr.state = .run → s.pwr.settle = none → Served s r Pg.PWR Off.PWR_PWR_CMD w)) ∧
    (s.pwr.state = .run → ∀ u,
      (∀ r w, Served s r Pg.RST Off.RST_RST_CMD w → w.bit 0 = true → w.bit 8 = false → warmed 0x10 true u →
        Does (.warm r w) s (served u r 0)) ∧
      (s.pwr.watchdog = true → warmed 0x20 false u → Does .wdtExpire s u) ∧
      (s.pwr.resetN = false → warmed 0x08 false u → Does .resetNAssert s { u with pwr := { u.pwr with resetN := true } })) ∧
    ∀ x slow, s.pwr.settle = some x → x.drained = true → x.warm = true → Reaches (.settleComplete slow) s fun t =>
      t.pwr.state = .boot ∧ t.pwr.wait = .hold ∧ t.pwr.lastDown = .settle ∧ t.pwr.settle = none

/-- R113, R115: the drain limit of a settle completes: it ends the drain, and the twin is told where the link is
ACTIVE; once drained, or with no settle, it changes nothing. A settle that still drains operations does not complete;
a park settle that does takes LH-96 to PARK with core power off, or back to RUN where a wake came. Readings: log 91,
133. -/
def Obligations.SettleRuns : Prop :=
  (∀ s : State, s.pwr.settle = none → Does .settleDrainLimit s s ∧ ∀ slow, Does (.settleComplete slow) s s) ∧
  ∀ (s : State) (x : Settle), s.pwr.settle = some x →
    (x.drained = false → Reaches .settleDrainLimit s fun t => t.pwr.settle = some { x with drained := true } ∧
      (s.acd.train = 5 → ∃ e n, t.acd.out.getLast? = some (.notice (if x.warm then 3 else 1) e n))) ∧
    (x.drained = true → Does .settleDrainLimit s s) ∧
    (x.drained = false → s.fratra.ops ≠ [] → ∀ slow, Does (.settleComplete slow) s s) ∧
    ∀ slow, x.drained = true ∨ s.fratra.ops = [] → x.warm = false →
      (x.woken = true → Reaches (.settleComplete slow) s fun t =>
        t.pwr.settle = none ∧ t.fratra.hold = false ∧ t.tat.passDue = true ∧ t.bit Pg.PWR Off.IRQ_FLAG 0 = true) ∧
      (x.woken = false → Reaches (.settleComplete slow) s fun t =>
        t.pwr.state = .park ∧ t.pwr.corePwrEn = false ∧ t.pwr.lastDown = .settle ∧ t.pwr.settle = none ∧
          t.clk.coreLock = false)

/-- R100, R117: RESET_N holds the core reset and its release, or the end of the hold, starts the boot ROM with TWIN_RANK and
BOOT_SRC sampled; WDT_KICK restarts the watchdog on the HKP path alone. R94, R95, Table 4.3: the AON power-on reset in OFF or
PARK takes the island to its reset values and LH-96 to OFF; in RUN, the table evaluated first (R45), it is deferred behind a
Harvest, and in HARVEST until that ends; in BOOT with the core rails up it goes to PARK and waits until they have fallen. Readings:
log 5, 94, 96. -/
def Obligations.Resets : Prop :=
  (∀ s : State,
    (∀ r w, Served s r Pg.RST Off.RST_RST_CMD w → w.bit 0 = false → w.bit 8 = true →
      Does (.wdtKick r w) s (served (if r.path = .hkp then { s with pwr := { s.pwr with wdtFrom := s.fratra.coreUs } } else s)
        r 0)) ∧
    (s.pwr.watchdog = true → Does .wdtWarn s (raise s Pg.RST 1)) ∧ (s.pwr.watchdog = false → Does .wdtWarn s s) ∧
    (s.pwr.watchdog = false → Does .wdtExpire s s) ∧
    (s.pwr.resetN = false → s.pwr.state = .park → Reaches .resetNAssert s fun t =>
      t.pwr = { s.pwr with resetN := true } ∧
      (∀ page, page < 4096 → aonPage page = true → t.bit page Off.PAGE_OWNER 15 = false) ∧
      ∀ page off, page < 4096 → off < 4096 → off % 4 = 0 → off ≠ Off.IRQ_FLAG → off ≠ Off.PAGE_OWNER →
        t.reg page off = s.reg page off) ∧
    (∀ straps, s.pwr.wait ≠ .hold → Does (.resetNRelease straps) s { s with pwr := { s.pwr with resetN := false } }) ∧
    (∀ straps, s.pwr.wait = .hold → s.pwr.cause &&& 0x38 ≠ 0 → Reaches (.resetNRelease straps) s fun t =>
      t.pwr.state = .boot ∧ t.pwr.wait = .none ∧ t.pwr.straps = ((s.pwr.straps &&& 0x18) ||| (straps &&& 0x07)) ∧
        (t.reg Pg.RST Off.RST_RST_CAUSE).fld 6 3 = s.pwr.cause.toNat / 8) ∧
    (∀ straps, s.pwr.wait = .hold → s.pwr.cause &&& 0x38 ≠ 0 → s.pwr.resetN = false →
      Reaches (.warmResetHoldEnd straps) s fun t =>
        t.pwr.state = .boot ∧ t.pwr.wait = .none ∧ t.pwr.straps = ((s.pwr.straps &&& 0x18) ||| (straps &&& 0x07)) ∧
          (t.reg Pg.RST Off.RST_RST_CAUSE).fld 6 3 = s.pwr.cause.toNat / 8) ∧
    (∀ straps, s.pwr.wait ≠ .hold ∨ s.pwr.resetN = true → Does (.warmResetHoldEnd straps) s s)) ∧
  (∀ (s : State) (byPin : Bool),
    (s.pwr.state = .off ∨ s.pwr.state = .park → s.pwr.porDeferred = false → Reaches (.aonPowerOnReset byPin) s fun t =>
      t.pwr = { state := .off, porHeld := true, porByPin := byPin, straps := s.pwr.straps, pgood := s.pwr.pgood
                resetN := s.pwr.resetN, lastDown := s.pwr.lastDown } ∧
      t.hub.tick = 0 ∧ t.hub.sillage = [] ∧ t.ft = {} ∧ t.sec.failures = 0 ∧ t.sec.lockout = false ∧ t.aqe = {} ∧ t.bus = {} ∧
      t.usb.up = .detached ∧ t.ftl = s.ftl ∧
      ∀ page off, page < 4096 → off < 4096 → off % 4 = 0 → off ≠ Off.IRQ_FLAG → journalMask (addr page off) = 0 →
        t.reg page off = regReset (addr page off)) ∧
    ((tatCycle s).pwr.state = .run → Reaches (.aonPowerOnReset byPin) s fun t =>
      t.pwr.state = .harvest ∧ t.pwr.porDeferred = true ∧ t.pwr.porByPin = byPin) ∧
    ((tatCycle s).pwr.state = .boot → (tatCycle s).pwr.corePwrEn = true → (tatCycle s).pwr.pgood = true →
      Reaches (.aonPowerOnReset byPin) s fun t =>
        t.pwr.state = .park ∧ t.pwr.corePwrEn = false ∧ t.pwr.porDeferred = true ∧ t.pwr.porByPin = byPin) ∧
    (s.pwr.state = .park → s.pwr.porDeferred = true → Reaches .pgoodCoreLoss s fun t =>
      t.pwr.state = .off ∧ t.pwr.porHeld = true ∧ t.pwr.porByPin = s.pwr.porByPin) ∧
    (s.pwr.state = .harvest → (∀ x, s.hrv.run = some x → x.railsFallen = false) → Does (.aonPowerOnReset byPin) s
      { s with pwr := { s.pwr with porDeferred := true, porByPin := byPin } }) ∧
    (s.pwr.state = .harvest → (∃ x, s.hrv.run = some x ∧ x.railsFallen = true) → Reaches (.aonPowerOnReset byPin) s fun t =>
      t.pwr.state = .off ∧ t.pwr.porHeld = true ∧ t.pwr.porByPin = byPin ∧ t.pwr.lastDown = .unclean ∧ t.hrv.run = none))

/-- R45, R98, R298 to R301: a power-fail trip, or the loss of PGOOD_CORE, in RUN is counted and starts the Harvest,
the table evaluated first: requests are held, the operations in flight end unanswered, and the Harvest is numbered. In
BOOT LH-96 goes to PARK without one. A glitch only counts. Readings: log 94, 95, 124. -/
def Obligations.PowerFails : Prop :=
  ∀ s : State,
    let fired := tatCycle s
    let harvesting (t : State) : Prop :=
      t.pwr.state = .harvest ∧ t.pwr.settle = none ∧ t.fratra.hold = true ∧ t.fratra.ops = [] ∧ t.ftl.progs = [] ∧
        t.hrv.hseq = (fired.hrv.hseq + 1) % 2 ^ 32 ∧ t.hrv.run = some
          { startNs := fired.ft.ns, dirty := dirtyBytes fired, segments := dirtyBytes fired / 4096, vTrip := fired.hrv.vNow } ∧
        t.ctr Pg.HRV 0x040 = min ctrMax (fired.ctr Pg.HRV 0x040 + 1) ∧ t.hub = fired.hub ∧ t.sec = fired.sec
    (fired.pwr.state = .run → Reaches .powerFailTrip s harvesting) ∧
    (fired.pwr.state = .boot → Reaches .powerFailTrip s fun t =>
      t.pwr.state = .park ∧ t.pwr.corePwrEn = false ∧ t.hrv.run = fired.hrv.run) ∧
    (s.pwr.state = .off ∨ s.pwr.state = .park ∨ s.pwr.state = .harvest → Does .powerFailTrip s s) ∧
    (fired.pwr.state = .run → fired.pwr.corePwrEn = true → fired.pwr.porDeferred = false →
      Reaches .pgoodCoreLoss s fun t => harvesting t ∧ t.pwr.pgood = false) ∧
    (s.pwr.corePwrEn = false → s.pwr.state = .off ∨ s.pwr.state = .park → s.pwr.porDeferred = false →
      Does .pgoodCoreLoss s { s with pwr := { s.pwr with pgood := false } }) ∧
    (s.pwr.state = .harvest → s.pwr.porDeferred = false → Does .pgoodCoreLoss s
      { s with pwr := { s.pwr with pgood := false }
               hrv := { s.hrv with run := s.hrv.run.map fun x => { x with railsFallen := true } } }) ∧
    (s.coreOn = true → Does .glitch s (bump s Pg.HRV 0x048)) ∧ (s.coreOn = false → Does .glitch s s)

/-- R300, R303: a LUN dropped and a program unit written again are noted in the Harvest that runs; its completion
journals Fleet Time, leaves the done record and the counts, and takes LH-96 to PARK with SYS_PWRDN, from which
recovery will follow. R307 to R309: a measurement between the two voltages, with a charge current set, leaves the
capacitance for the next check, which puts it in force, sets CAP_DONE and samples the bank's voltage; WEAK follows
what the bank then allows, counted on entry. Readings: log 134, 135. -/
def Obligations.HarvestAndBank : Prop :=
  (∀ (s : State) (x : HarvestRun), s.hrv.run = some x →
    (∀ lun, lun ∈ rotation s →
      Does (.harvestLunDrop lun) s { s with hrv := { s.hrv with run := some { x with dropped := setAdd x.dropped lun } } } ∧
      Does (.harvestProgFail lun) s { s with hrv := { s.hrv with run := some { x with rewritten := x.rewritten + 1 } } }) ∧
    (∀ lun, lun ∉ rotation s → Does (.harvestLunDrop lun) s s ∧ Does (.harvestProgFail lun) s s) ∧
    ∀ vEnd durUs, s.pwr.state = .harvest → s.pwr.porDeferred = false →
      Reaches (.harvestDone vEnd durUs) s fun t =>
        t.pwr.state = .park ∧ t.pwr.lastDown = .harvest ∧ t.pwr.sysPwrdn = true ∧ t.pwr.corePwrEn = false ∧
        t.hrv.run = none ∧ t.hrv.done.map (fun d => (d.hseq, d.dirty, d.dropped, d.vTrip, d.vEnd, d.durUs)) =
          some (s.hrv.hseq, x.dirty, x.dropped.length, x.vTrip, vEnd, durUs) ∧
        t.ft.journal = some
          { ns := s.ft.ns, sub := s.ft.sub, tick := s.hub.tick, mode := s.ft.mode, stepCount := s.ft.stepCount } ∧
        t.ctr Pg.HRV 0x050 = min ctrMax (s.ctr Pg.HRV 0x050 + 1)) ∧
  (∀ s : State,
    let chg := s.fld Pg.HRV Off.HRV_BANK_CFG3 31 16
    let lo := s.fld Pg.HRV Off.HRV_BANK_CHK 15 0
    let hi := s.fld Pg.HRV Off.HRV_BANK_CHK 31 16
    (∀ ticks, chg ≠ 0 → lo < hi → s.pwr.state ≠ .off → Does (.bankMeasure ticks) s
      { s with hrv := { s.hrv with cNew := some (min 65535 (chg * ticks / (50 * (hi - lo)))) } }) ∧
    (∀ ticks, chg = 0 ∨ hi ≤ lo → Does (.bankMeasure ticks) s s) ∧
    (∀ mv, s.pwr.state = .boot ∨ s.pwr.state = .run →
      let checked : State :=
        { s with hrv := { s.hrv with vNow := mv, vBank := mv, cNew := none, cMeas := s.hrv.cNew.orElse fun _ => s.hrv.cMeas } }
      Reaches (.bankCheck mv) s fun t =>
        t.hrv = { checked.hrv with weak := bankWeak checked } ∧
        (s.hrv.cNew.isSome = true → t.bit Pg.HRV Off.IRQ_FLAG 1 = true) ∧
        t.ctr Pg.HRV 0x068 = (if bankWeak checked = true ∧ s.hrv.weak = false then min ctrMax (s.ctr Pg.HRV 0x068 + 1)
          else s.ctr Pg.HRV 0x068) ∧ t.ftl = s.ftl ∧ t.pwr = s.pwr) ∧
    (∀ mv, s.pwr.state = .park → Does (.bankCheck mv) s { s with hrv := { s.hrv with vNow := mv } }))

/-! ## Ethernet ports (chapter 05) -/

/-- R121 to R123, R143: PORT_CFG is stored when served, a new mode loading its calibrated latencies while the HKP runs
(the model's choice of the moment, log 122); a link comes up on an enabled port, in RUN, at a speed that its mode has,
with what the PCS found, and sets LINK_UP, but a half-duplex SGMII link sets AN_FAIL instead; a link that goes down is
counted, ends what the port was receiving, as a code error, and sending, counted in TX_DROP, and sets LINK_DOWN. R148,
R150: SAVE takes a snapshot of the registers R148 names as they stand; its end makes it the one restored at RUN entry,
numbers it and sets SAVE_DONE, or, where it could not be journaled, records SAVE_FAIL. Readings: log 2, 118, 120, 121.
-/
def Obligations.PortLinks : Prop :=
  ((∀ (s : State) (r : Req) (k : Nat) (w : Word) (row : RegRow) (j : Nat), k < 4 → rowAt .mac Off.MAC_PORT_CFG = some (row, j) →
    Served s r (Pg.MAC k) Off.MAC_PORT_CFG w →
    let t := setReg s (Pg.MAC k) Off.MAC_PORT_CFG
      ((s.reg (Pg.MAC k) Off.MAC_PORT_CFG &&& ~~~ accMask .rw row) ||| (w &&& accMask .rw row))
    let mode := w.fld 3 0
    Does (.portCfg r k w) s (served
      (if s.portMode k ≠ mode ∧ mode ≠ 0 ∧ s.pwr.image = true then setReg t (Pg.MAC k) Off.MAC_PORT_LAT (Config.portLat k mode)
       else t) r 0)) ∧
  ∀ (s : State) (k : Nat), k < 4 →
    (∀ info, s.en (Pg.MAC k) = true → s.inRun = true → (s.port k).link = false →
      (∀ v, linkSpeed s k info.speed = some v → ¬ (s.portMode k = 4 ∧ info.halfDuplex = true) →
        Does (.linkUp k info) s (raise (setPort s k { s.port k with
          link := true, anDone := info.anDone && s.negotiates k, speed := v
          fecLock := info.fecLock && decide (s.fld (Pg.MAC k) Off.MAC_PORT_CFG 5 4 ≠ 0), localFault := false
          remoteFault := false }) (Pg.MAC k) 1)) ∧
      (∀ v, linkSpeed s k info.speed = some v → s.portMode k = 4 → info.halfDuplex = true →
        Does (.linkUp k info) s (raise s (Pg.MAC k) 0x80)) ∧
      (linkSpeed s k info.speed = none → Does (.linkUp k info) s s)) ∧
    ∀ fault got, (s.port k).link = true →
      (∀ r, (s.port k).rx = some r → r.admitted = none ∧ s.bit (Pg.MAC k) Off.MAC_FRAME_CFG 16 = false) →
      let n := (s.port k).tx.length + if (s.port k).cur.isSome then 1 else 0
      let u := bump s (Pg.MAC k) 0x0F8
      let u := if (s.port k).rx.isSome then bump u (Pg.MAC k) 0x080 else u
      Does (.linkDown k fault got) s (raise (bumpBy (setPort u k { s.port k with
        rx := none, link := false, anDone := false, speed := 0, fecLock := false, localFault := fault.localFault
        remoteFault := fault.remoteFault, paused := false, pfcPaused := 0 }) (Pg.MAC k) 0x0E0 n) (Pg.MAC k) (if n = 0 then 2 else 0x102))) ∧
  ((∀ (s : State) (r : Req) (w : Word), Served s r Pg.STEER Off.STEER_CFG_CMD w → w.bit 0 = true →
    Reaches (.save r w) s fun t => ∃ m, t.snap = { s.snap with saving := some m } ∧
      ∀ e, e ∈ m → snapHolds e.1 = true ∧ e.2 = snapValue s e.1) ∧
  ∀ (s : State) (m : Store Word), s.snap.saving = some m →
    Does (.saveDone true) s (raise (journalPut
      { s with snap := { s.snap with saved := some m, saving := none, seq := (s.snap.seq + 1) % 65536 } } .snapshot)
      Pg.STEER 1) ∧
    Does (.saveDone false) s (internalErr { s with snap := { s.snap with saving := none } } Pg.STEER 0x40))

/-- Table 5.5, R131 to R138: a frame that starts on a port that receives is judged in stage 1: MAC control by its address and
EtherType; dropped by the filters; steered, the queue then discarding it, setting cells aside for it, or having none. Readings:
log 26. -/
def Obligations.FrameStarts : Prop :=
  ∀ (s : State) (k : Nat) (head : List Byte), k < 4 → s.receiving k = true → (s.port k).rx = none → 14 ≤ head.length →
    let i := s.readHead k head
    let base : RxPending :=
      { head := head, stamp := s.ft.ns - s.fld (Pg.MAC k) Off.MAC_PORT_LAT 15 0, allowance := s.maxFrm k + 4 * i.tags
        ctl := 0, filtered := false, discard := false, admitted := none }
    let q := (steerQueue s k i).getD (s.fld (Pg.MAC k) Off.MAC_DEFAULT_Q 3 0)
    (ctlKind s k i head ≠ 0 →
      Does (.rxFrameStart k head) s (setPort s k { s.port k with rx := some { base with ctl := ctlKind s k i head } })) ∧
    (ctlKind s k i head = 0 → filterPass s k i = false →
      Does (.rxFrameStart k head) s (setPort s k { s.port k with rx := some { base with filtered := true } })) ∧
    (ctlKind s k i head = 0 → filterPass s k i = true → Reaches (.rxFrameStart k head) s fun t =>
      (t.port k).rx = some
        (if s.queueRole k q = 0 then { base with discard := true }
         else if canAdmit s k q (asideN s k) = true then { base with admitted := some (q, asideN s k) } else base) ∧
      t.ctr Pg.STEER 0x040 = (if (steerQueue s k i).isSome then s.ctr Pg.STEER 0x040
        else min ctrMax (s.ctr Pg.STEER 0x040 + 1)) ∧
      (∀ j, (t.port k).queues = (s.port k).queues ∧ (j ≠ k → portView (t.port j) = portView (s.port j))) ∧ t.ftl = s.ftl)

/-- R126 to R131, R146: a frame that ends is counted by what ended it (jabber, runt, oversize, code error, bad FCS,
MAC control or filter, discard, no room); one that ends well on a queue of the Fratra engine, not addressed to the
twin, is stored in it without its FCS, in the order of release. The FEC codewords of a receiving port with FEC are
counted, an uncorrected one sets FEC_UNCORR. Readings: log 26, 119. -/
def Obligations.FrameEnds : Prop :=
  (∀ (s : State) (k a b : Nat), k < 4 →
    let f := countFec s k a b
    (s.receiving k = true → s.fld (Pg.MAC k) Off.MAC_PORT_CFG 5 4 ≠ 0 →
      f.ctr (Pg.MAC k) 0x0E8 = min ctrMax (s.ctr (Pg.MAC k) 0x0E8 + a) ∧
      (b ≠ 0 → f.ctr (Pg.MAC k) 0x0F0 = min ctrMax (s.ctr (Pg.MAC k) 0x0F0 + b) ∧ f.bit (Pg.MAC k) Off.IRQ_FLAG 6 = true)) ∧
    (s.receiving k = false ∨ s.fld (Pg.MAC k) Off.MAC_PORT_CFG 5 4 = 0 → f = s) ∧
    ((s.port k).rx = none → ∀ rest code, Does (.rxFrameEnd k rest ⟨code, a, b⟩) s f)) ∧
  ∀ (s : State) (k : Nat) (rest : List Byte) (r : RxPending) (fc fu : Nat), k < 4 → (s.port k).rx = some r →
    let bs := r.head ++ rest
    let f := countFec s k fc fu
    let t := setPort f k { f.port k with rx := none, toHkp := none }
    let fcsOk := bs.drop (bs.length - 4) = leBytes32 (crc32 (bs.take (bs.length - 4)))
    let fits := 64 ≤ bs.length ∧ bs.length ≤ r.allowance ∧ bs.length ≤ 16383
    let count (off : Nat) (code : Bool) := Does (.rxFrameEnd k rest ⟨code, fc, fu⟩) s (bump t (Pg.MAC k) off)
    (∀ code, r.admitted = none → 16383 < bs.length → count 0x078 code) ∧
    (∀ code, r.admitted = none → bs.length < 14 → count 0x068 code) ∧
    (s.bit (Pg.MAC k) Off.MAC_FRAME_CFG 16 = false → r.admitted = none →
      (∀ code, 14 ≤ bs.length → bs.length < 64 → count 0x068 code) ∧
      (∀ code, 64 ≤ bs.length → bs.length ≤ 16383 → r.allowance < bs.length → count 0x070 code) ∧
      (fits → count 0x080 true) ∧ (fits → ¬ fcsOk → count 0x088 false)) ∧
    (fits → fcsOk → r.admitted = none →
      (r.ctl = 0 → r.filtered = true → count 0x0A0 false) ∧ (r.ctl = 3 → count 0x0A0 false) ∧
      (r.ctl = 0 → r.filtered = false → r.discard = true → count 0x0A8 false) ∧
      (r.ctl = 0 → r.filtered = false → r.discard = false →
        Does (.rxFrameEnd k rest ⟨false, fc, fu⟩) s (raise (bump t (Pg.MAC k) 0x0B0) (Pg.MAC k) 4))) ∧
    ∀ q n, fits → fcsOk → r.admitted = some (q, n) → r.ctl = 0 → r.filtered = false → r.discard = false →
      1 ≤ s.queueRole k q → s.queueRole k q ≤ 3 → relayed s k q (s.readHead k r.head) = false →
      Reaches (.rxFrameEnd k rest ⟨false, fc, fu⟩) s fun u =>
        (u.port k).rx = none ∧ storeLook (u.port k).queues q [] = storeLook (s.port k).queues q [] ++
          [{ bytes := bs.take (bs.length - 4), stamp := r.stamp, cells := (bs.length - 4 + 255) / 256
             order := s.fratra.nextOrder }] ∧
        u.fratra.nextOrder = s.fratra.nextOrder + 1 ∧
        u.ctr (Pg.MAC k) 0x040 = min ctrMax (s.ctr (Pg.MAC k) 0x040 + 1) ∧
        u.ctr (Pg.MAC k) 0x048 = min ctrMax (s.ctr (Pg.MAC k) 0x048 + bs.length) ∧ u.ftl = s.ftl ∧ u.acd = s.acd

/-- R132, R140, R141: a receiving port counts each PAUSE and PFC frame; in the matching mode, with flow control
received enabled, a PAUSE stops or releases every class and a PFC frame the priorities enabled both in it and in
PFC_RX_EN; the stops end; and an XOFF is due again, and sent at a frame boundary, while a queue stays in it. Readings:
log 26, 121. -/
def Obligations.FlowControl : Prop :=
  ∀ (s : State) (k : Nat), k < 4 →
    let mode := s.fld (Pg.MAC k) Off.MAC_FC_CFG 1 0
    (∀ time, s.bit (Pg.MAC k) Off.MAC_FC_CFG 2 = true → mode = 1 → s.receiving k = true →
      Does (.pause k time) s (bump (setPort s k { s.port k with paused := decide (time ≠ 0) }) (Pg.MAC k) 0x090)) ∧
    (∀ time, s.bit (Pg.MAC k) Off.MAC_FC_CFG 2 = false ∨ mode ≠ 1 → s.receiving k = true →
      Does (.pause k time) s (bump s (Pg.MAC k) 0x090)) ∧
    (∀ classes times, s.bit (Pg.MAC k) Off.MAC_FC_CFG 2 = false ∨ mode ≠ 2 → s.receiving k = true →
      Does (.pfc k classes times) s (bump s (Pg.MAC k) 0x098)) ∧
    (s.receiving k = false → (∀ time, Does (.pause k time) s s) ∧ ∀ classes times, Does (.pfc k classes times) s s) ∧
    (∀ classes times, s.bit (Pg.MAC k) Off.MAC_FC_CFG 2 = true → mode = 2 → s.receiving k = true →
      Reaches (.pfc k classes times) s fun t =>
        (∀ p, p < 8 → (t.port k).pfcPaused.getLsbD p =
          if classes.getLsbD p && s.bit (Pg.MAC k) Off.MAC_FC_CFG (8 + p) then decide (times.getD p 0 ≠ 0)
          else (s.port k).pfcPaused.getLsbD p) ∧
        portView { t.port k with pfcPaused := (s.port k).pfcPaused } = portView (s.port k) ∧
        (∀ j, j ≠ k → portView (t.port j) = portView (s.port j)) ∧ coreView t = coreView s ∧
        t.ctr (Pg.MAC k) 0x098 = min ctrMax (s.ctr (Pg.MAC k) 0x098 + 1)) ∧
    Does (.pauseExpire k none) s (setPort s k { s.port k with paused := false }) ∧
    (∀ p, p < 8 → Does (.pauseExpire k (some p)) s
      (setPort s k { s.port k with pfcPaused := (s.port k).pfcPaused &&& ~~~ BitVec.ofNat 8 (2 ^ p) })) ∧
    ((s.port k).xoff ≠ [] → mode = 1 ∨ mode = 2 → s.portUp k = true → s.inRun = true → (s.port k).cur = none →
      Reaches (.pauseRefresh k) s fun t =>
        coreView t = coreView s ∧ ∃ c, (t.port k).cur = some c ∧ c.ctl = mode) ∧
    ((s.port k).cur.isSome = true → Reaches (.pauseRefresh k) s fun t =>
      coreView t = coreView s ∧ (t.port k).due = (s.port k).due ||| xoffNow s k ∧ (t.port k).cur = (s.port k).cur) ∧
    ((s.port k).xoff = [] → Does (.pauseRefresh k) s s)

/-- R142 to R144: a frame that has left is counted with its length, a PAUSE or PFC frame also as such; a two-step
stamp asked for by a PTP event frame goes into the port's stamp FIFO while it has room, and is lost, TX_TS_OVF set,
where it has none; a served read of TX_TS_NS takes the oldest. Readings: log 117, 118. -/
def Obligations.FramesLeave : Prop :=
  ∀ (s : State) (k : Nat), k < 4 →
    (∀ c, (s.port k).cur = some c →
      let left := setPort s k { s.port k with cur := none, sent := some c }
      let counted := bump (bumpBy left (Pg.MAC k) 0x0C8 c.length) (Pg.MAC k) 0x0C0
      (c.ctl = 0 → c.frame.stamp = .none → Does (.txFrameDone k []) s counted) ∧
      (c.ctl = 1 → Does (.txFrameDone k []) s (bump counted (Pg.MAC k) 0x0D0)) ∧
      (c.ctl = 2 → Does (.txFrameDone k []) s (bump counted (Pg.MAC k) 0x0D8)) ∧
      (∀ body, c.ctl = 0 → c.frame.stamp = .twoStep → ptpEvent s k c.frame.bytes = some body → (s.port k).tsFifo.length < 4 →
        Does (.txFrameDone k []) s (setPort counted k { counted.port k with
          tsFifo := (s.port k).tsFifo ++ [{ ns := c.startNs, msgType := (body.headD 0).toNat % 16
                                            seqId := beNat ((body.drop 30).take 2)
                                            domain := ((body.drop 4).headD 0).toNat }] })) ∧
      (∀ body, c.ctl = 0 → c.frame.stamp = .twoStep → ptpEvent s k c.frame.bytes = some body → 4 ≤ (s.port k).tsFifo.length →
        Does (.txFrameDone k []) s (internalErr (raise counted (Pg.MAC k) 0x10) (Pg.MAC k) 0x40))) ∧
    ((s.port k).cur = none → Does (.txFrameDone k []) s s) ∧
    (∀ r x rest, ServedRead s r (Pg.MAC k) Off.MAC_TX_TS_NS → (s.port k).tsFifo = x :: rest →
      let sec := x.ns / 1000000000
      let t := setPort s k { s.port k with tsFifo := rest }
      Does (.txTsNs r k) s (served (setShadow (setShadow (setShadow t r.path (Pg.MAC k) Off.MAC_TX_TS_SEC_LO
        (BitVec.ofNat 32 sec)) r.path (Pg.MAC k) Off.MAC_TX_TS_INFO (Word.place 15 0 (sec / 2 ^ 32) |||
          Word.place 19 16 x.msgType ||| flagBit 31 true)) r.path (Pg.MAC k) Off.MAC_TX_TS_SEQ
          (Word.place 15 0 x.seqId ||| Word.place 23 16 x.domain)) r (BitVec.ofNat 32 (x.ns % 1000000000)))) ∧
    ∀ r, ServedRead s r (Pg.MAC k) Off.MAC_TX_TS_NS → (s.port k).tsFifo = [] →
      Reaches (.txTsNs r k) s fun t => lastAnswer t r.path = {} ∧
        t.shadow r.path (Pg.MAC k) Off.MAC_TX_TS_INFO = 0 ∧ (t.port k).tsFifo = []

/-! ## The Fratra engine and the tenants (chapters 06 to 08) -/

/-- Table 6.8 on the frame that the engine takes next from a port's queue: malformed, of a tenant without binding, or
not authentic, it is counted and dropped; in a tenant reset it is answered BUSY, and without a stream that it does not
open OUT_OF_WINDOW; a one-frame read that is next on its stream, with an op tag to be had, starts an operation that is
ready, in the order of admission. Readings: log 13, 14, 15, 25. -/
def Obligations.FrameArrivals : Prop :=
  ∀ (s : State) (w : Waiting) (k q : Nat) (f : RxFrame) (rest : List RxFrame), s.inRun = true → nextWaiting s = some w →
    w.place = some (k, q) → storeLook (s.port k).queues q [] = f :: rest →
    let c := portCarriage s k f.bytes
    let part := f.bytes.drop (14 + 4 * tagCount (s.sTpid k) f.bytes)
    let r := parseRequest part
    let i : StreamId := { tenant := r.tenant, client := c.src, stream := r.stream }
    let u := xoffUpdate (onPort s k fun p => { p with queues := storePut p.queues q [] rest }) k q
    let ill := part.length < 32 ∨ r.ver ≠ 1 ∨ r.resp = true ∨ c.src.getLsbD 40 = true ∨ r.whole = false
    (ill → Does .arrival s (bump u Pg.FWP 0x040)) ∧
    (¬ ill → tenantAdmitted u c r.tenant = false → Does .arrival s (raise (bump u Pg.FWP 0x048) Pg.FWP 2)) ∧
    (¬ ill → tenantAdmitted u c r.tenant = true → authenticate u c r = none →
      Does .arrival s (raise (bump u Pg.FWP 0x050) Pg.FWP 1)) ∧
    ∀ auth secure, ¬ ill → tenantAdmitted u c r.tenant = true → authenticate u c r = some (auth, secure) →
      ((u.ten r.tenant).rstBusy = true → Does .arrival s (answerFrame u c auth r St.BUSY 0 0 true)) ∧
      ((u.ten r.tenant).rstBusy = false → u.findStream i = none → r.options.bit 1 = false →
        Does .arrival s (answerFrame u c auth r St.OUT_OF_WINDOW 0 0 true)) ∧
      ∀ ctx, (u.ten r.tenant).rstBusy = false → u.findStream i = some ctx → accepts ctx r.seq = true → r.seq = ctx.n + 1 →
        seqLe r.seq ctx.limit = true → ctx.got = [] → assembling u i = [] → ctx.residue = [] →
        streamHold u r.tenant = false → tagFree u r.tenant = true → requestFault r = none →
        r.opcode ∈ [0x01, 0x02, 0x30, 0x31, 0x3F] → (r.opcode = 0x31 → r.offset = 1 → r.tenant = 0) →
        Reaches .arrival s fun t =>
          storeFind t.fratra.ops s.fratra.nextOp = some
            { id := i, carriage := c, opcode := r.opcode, optag := r.optag, options := r.options, key := r.key
              version := r.version, offset := r.offset, total := r.total
              ext := r.ext.map fun e => e.1 * 1000000000 + e.2.1
              pieces := [{ seq := r.seq, offset := 0, last := true, bytes := [] }]
              lastSeq := r.seq, admitNs := s.ft.ns, order := some s.fratra.nextOrder, auth := auth, secure := secure
              phase := .ready } ∧
          t.fratra.nextOp = s.fratra.nextOp + 1 ∧ t.fratra.nextOrder = s.fratra.nextOrder + 1 ∧
          (∃ d, t.findStream i = some d ∧ d.n = r.seq) ∧ t.ftl = s.ftl ∧ t.acd = s.acd

/-- R158, R164, R188, R191, R202, R257: an operation whose turn has come is answered with what Table 7.1 gives: GET
the value of its key, or of its alias's target, GET_RANGE the bytes of the range that exist, each using the grain
regions from which flash serves it, SCAN the entries of the prefix, STAT the record asked for, FLUSH nothing; each
answer releases the op tag. A key that is absent is answered NOT_FOUND. Readings: log 22, 127. -/
def Obligations.ReadsAnswer : Prop :=
  ∀ (s : State) (k : Nat) (o : OpState),
    let n := o.id.tenant
    let intact := ∀ e, s.findKey n o.key = some e → lostRanges s e = []
    (opReady s 0x01 k = some o → intact →
      (resolveKey s n o.key = none → Does (.get k) s (finishOp s k { status := St.NOT_FOUND })) ∧
      ∀ e, resolveKey s n o.key = some e → lostRanges s e = [] → damageStatus e = none →
        Does (.get k) s (finishOp (readRegions s e) k
          { status := St.OK, version := e.version, total := (contentBytes e).length, value := contentBytes e })) ∧
    (opReady s 0x02 k = some o → intact →
      ∀ e, resolveKey s n o.key = some e → lostRanges s e = [] → damageStatus e = none →
        let len := (contentBytes e).length
        (o.offset < len → Does (.getRange k) s (finishOp (readRegions s e) k
          { status := St.OK, version := e.version, offset := o.offset, total := min len (o.offset + o.total)
            value := (contentBytes e).extract o.offset (o.offset + o.total) })) ∧
        (len ≤ o.offset → Does (.getRange k) s (finishOp (readRegions s e) k
          { status := St.OK, version := e.version, offset := o.offset, total := o.offset }))) ∧
    (opReady s 0x30 k = some o → o.version = 0 →
      let keys := (s.ten n).keys.filter fun e => decide (e.key.take o.key.length = o.key)
      let bytes := keys.flatMap scanEntry
      bytes.length ≤ (if o.total = 0 then 65536 else o.total) →
      Does (.scan k) s (finishOp s k { status := St.OK, total := bytes.length, value := bytes })) ∧
    (opReady s 0x31 k = some o →
      let record (bs : List Byte) := Does (.stat k) s (finishOp s k { status := St.OK, total := bs.length, value := bs })
      (o.offset = 1 → record (healthReport s)) ∧ (o.offset = 0 → o.key = [] → record (tenantRecord s n)) ∧
      (∀ e, o.offset = 0 → o.key ≠ [] → s.findKey n o.key = some e → record (keyRecord e)) ∧
      (o.offset = 0 → o.key ≠ [] → s.findKey n o.key = none →
        Does (.stat k) s (finishOp s k { status := St.NOT_FOUND }))) ∧
    (opReady s 0x3F k = some o →
      (s.fratra.ops.any fun e => e.1 ≠ k && decide (e.2.id = o.id) && seqLe e.2.lastSeq o.lastSeq) = false →
      Does (.flush k) s (finishOp s k { status := St.OK })) ∧
    ∀ a : Answer, storeFind s.fratra.ops k = some o → a.status = St.OK →
      let t := finishOp s k a
      storeFind t.fratra.ops k = none ∧ t.ctr Pg.FWP 0x070 = min ctrMax (s.ctr Pg.FWP 0x070 + 1) ∧
        (∀ j, j ≠ k → storeFind t.fratra.ops j = storeFind s.fratra.ops j) ∧ t.ftl = s.ftl ∧
        ∀ m, (t.ten m).keys = (s.ten m).keys

/-- R184, R188: PUT of a key that is not held, PUT_IF_ABSENT of an absent one, CAS of one with the version asked for,
and APPEND to an absent one commit the value under the tenant's next version, where the key index has room and the
Harvest budget takes its bytes; no other key of any tenant changes. What Table 7.1 refuses is answered so and commits
nothing. Readings: log 23, 24, 28, 127. -/
def Obligations.ValueWrites : Prop :=
  ∀ (s : State) (k : Nat) (o : OpState) (total : Nat),
    let n := o.id.tenant
    let fail (c : Instr) (a : Answer) := Does c s (finishOp s k a)
    (∀ e, s.findKey n o.key = some e →
      (opReady s 0x10 k = some o → keyHeld e = true → fail (.put k) { status := St.HELD }) ∧
      (opReady s 0x11 k = some o → fail (.putIfAbsent k) { status := St.EXISTS, version := e.version }) ∧
      (opReady s 0x13 k = some o → keyHeld e = false → o.version = 0 ∨ e.version ≠ o.version →
        fail (.cas k) { status := St.VERSION_MISMATCH, version := e.version })) ∧
    (opReady s 0x13 k = some o → s.findKey n o.key = none → fail (.cas k) { status := St.NOT_FOUND }) ∧
    ((s.findKey n o.key).isSome = true ∨ keyTotal s < keyCap s →
      let w := commitPut s n o.key (.value o.data) o.admitNs (waitTag s k o) o.carriage
      let u := ackWrite (waitsTwin s o) (bumpBy w.2 (Pg.TEN n) 0x050 o.data.length) k o
        { status := St.OK, version := w.1, total := total }
      ifRoom s u = u →
        (opReady s 0x10 k = some o → total = 0 → (∀ e, s.findKey n o.key = some e → keyHeld e = false) →
          Does (.put k) s u) ∧
        (opReady s 0x11 k = some o → total = 0 → s.findKey n o.key = none → Does (.putIfAbsent k) s u) ∧
        (opReady s 0x13 k = some o → total = 0 →
          (∃ e, s.findKey n o.key = some e ∧ keyHeld e = false ∧ o.version ≠ 0 ∧ e.version = o.version) →
          Does (.cas k) s u) ∧
        (opReady s 0x12 k = some o → total = o.data.length → s.findKey n o.key = none → Does (.append k) s u)) ∧
    let t := (commitPut s n o.key (.value o.data) o.admitNs (waitTag s k o) o.carriage).2
    (∃ e, t.findKey n o.key = some e ∧ e.content = .value o.data ∧ e.version = (s.ten n).verCtr + 1 ∧
      e.firstNs = o.admitNs ∧ e.lastNs = s.ft.ns ∧ e.damage = .none) ∧
    (t.ten n).verCtr = (s.ten n).verCtr + 1 ∧
    ∀ m key, m ≠ n ∨ key ≠ o.key → t.findKey m key = s.findKey m key

/-- R188, R193, R194, R200: DELETE removes a key that is not held and has the version asked for, 0 asking for none;
HOLD and RELEASE set and clear its hold; ALIAS_SET commits an alias; a swap is staged in the lowest free pool entry
under the next identifier, and ALIAS_SWAP_AT answers entry and identifier, MIRRORED once the twin has the stage;
APPEND extends a value that is not held. Readings: log 28, 127. -/
def Obligations.KeyChanges : Prop :=
  ∀ (s : State) (k : Nat) (o : OpState),
    let n := o.id.tenant
    let wt := waitTag s k o
    let ack (t : State) (a : Answer) : State := ackWrite (waitsTwin s o) t k o a
    (∀ e, s.findKey n o.key = some e →
      (opReady s 0x14 k = some o → o.version = 0 ∨ e.version = o.version →
        (keyHeld e = true → Does (.delete k) s (finishOp s k { status := St.HELD })) ∧
        (keyHeld e = false →
          let u := commitDelete s n e wt o.carriage
          Does (.delete k) s (ack u { status := St.OK, version := e.version }) ∧
          u.findKey n o.key = none ∧ (u.ten n).verCtr = (s.ten n).verCtr + 1)) ∧
      (opReady s 0x15 k = some o → o.options.bit 3 = true →
        let u := commitHold s n e true wt o.carriage
        Does (.hold k) s (ack u { status := St.OK, version := e.version }) ∧
        u.findKey n o.key = some { e with client := true }) ∧
      (opReady s 0x15 k = some o → o.options.bit 3 = false →
        let u := commitHold s n e false wt o.carriage
        Does (.release k) s (ack u { status := St.OK, version := e.version }) ∧
        u.findKey n o.key = some { e with client := false, incident := false }) ∧
      ∀ old, opReady s 0x12 k = some o → damageStatus e = none → e.content = .value old → keyHeld e = false →
        old.length + o.data.length ≤ 67108864 →
        let w := commitAppend s n e old o.data wt o.carriage
        let u := ack (bumpBy w.2 (Pg.TEN n) 0x050 o.data.length)
          { status := St.OK, version := w.1, offset := old.length, total := old.length + o.data.length }
        ifRoom s u = u → Does (.append k) s u ∧
          ∃ d, w.2.findKey n o.key = some d ∧ d.content = .value (old ++ o.data) ∧ d.version = (s.ten n).verCtr + 1 ∧
            d.firstNs = e.firstNs) ∧
    (opReady s 0x20 k = some o → (∀ e, s.findKey n o.key = some e → keyHeld e = false) →
      (s.findKey n o.key).isSome = true ∨ keyTotal s < keyCap s →
      let w := commitPut s n o.key (.aliasTo o.data) o.admitNs wt o.carriage
      let u := ack w.2 { status := St.OK, version := w.1 }
      ifRoom s u = u → Does (.aliasSet k) s u) ∧
    (∀ (w : Swap) wait carr p l, s.beyond w.tenant ≠ .mirror → poolEntries s = p :: l →
      let ident := s.fratra.nextSwap
      stageSwap s w wait carr = (p * 65536 + ident, setEntry { s with fratra := { s.fratra with
        swaps := s.fratra.swaps ++ [{ w with ident := ident, entry := some p }], nextSwap := nextIdent ident } } p
        (swapEntry w.tenant ident w.ns w.skipLate))) ∧
    (opReady s 0x21 k = some o →
      (waitsTwin s o = false ∨ o.twinStage ≠ some false → Does (.aliasSwapAt k) s (finishOp s k
        { status := St.OK, version := o.staged.getD 0, mirrored := decide (o.twinStage = some true) })) ∧
      (waitsTwin s o = true → o.twinStage = some false → Does (.aliasSwapAt k) s (onOp s k fun p =>
        { p with reserved := 0, phase := .waitTwin (finalOf s o
          { status := St.OK, version := o.staged.getD 0, mirrored := true }) })))

/-- R166, R178, R173, R479: REG_ACCESS performs its records in order, each an access on the FRATRA path by TC0, and
answers their results; a message for the HKP takes the mailbox, and finds it BUSY while another holds it; a change of
LIMIT that no response has carried goes out in a progress response; an idle stream's context is reclaimed, a busy
one's is not. Readings: log 45, 52, 106, 126. -/
def Obligations.EngineEvents : Prop :=
  ∀ (s : State),
    (∀ k o, opReady s 0x70 k = some o →
      let r := (List.range (o.data.length / 8)).foldl
        (fun r i => regRecord o.secure r ((o.data.drop (8 * i)).take 8)) (s, [])
      r.2.length = 8 * (o.data.length / 8) ∧
      Does (.regAccess k) s (finishOp r.1 k { status := St.OK, total := r.2.length, value := r.2 })) ∧
    (∀ k o, opReady s 0x71 k = some o →
      (s.usb.mailbox = none → Does (.mailbox k) s (onOp (bump { s with usb := { s.usb with
        mailbox := some { lmf := false, opTag := some k, sec := o.secure, msg := o.data } } } Pg.HKP 0x040) k
        fun o => { o with phase := .mailbox })) ∧
      (s.usb.mailbox.isSome = true → Does (.mailbox k) s (finishOp s k { status := St.BUSY }))) ∧
    ∀ i, (∀ c, s.findStream i = some c →
        (c.owed = true → Does (.progressResponse i) s (sendProgress s i c.carriage c.auth false)) ∧
        (c.owed = false → Does (.progressResponse i) s s)) ∧
      (streamBusy s i = false → Reaches (.streamIdle i) s fun t => t.findStream i = none ∧
        (∀ j, j ≠ i → (t.findStream j).map streamView = (s.findStream j).map streamView) ∧ t.fratra.ops = s.fratra.ops) ∧
      (streamBusy s i = true → Does (.streamIdle i) s s)

/-- R214, R215, R228 to R232: TEN_CFG and TEN_BIND take their fields when served (on rank 1 while PAIRED, LEAD, MIRROR and
ACTIVE stay as rank 0's map gives them), and a tenant whose ACTIVE falls is reset; TEN_CMD starts a reset, which ends every
operation of the tenant, or a purge; the end of a reset removes its streams, the end of a purge its keys, its staged swaps and,
under encryption, its key. R201: an incident event in RUN, with the input enabled and no twin to send it on to, opens the window
or moves its end, counts the event and holds every key whose time span it meets; with the input off it does nothing; the window
closes with its flag. -/
def Obligations.TenantsAndIncidents : Prop :=
  (∀ (s : State) (n : Nat), n < 64 →
    let page := Pg.TEN n
    (∀ r w, Served s r page Off.TEN_TEN_CFG w →
      let old := s.reg page Off.TEN_TEN_CFG
      let v := (stored s .ten page Off.TEN_TEN_CFG w).reg page Off.TEN_TEN_CFG
      Reaches (.tenCfg r n w) s fun t => lastAnswer t r.path = {} ∧
        t.reg page Off.TEN_TEN_CFG = (if s.rank = 1 ∧ s.acd.pair = .paired ∧ s.acd.twinMap.isEmpty = false then
          mapCfg (s.acd.twinMap.getD n 0) v else v) ∧
        (old.bit 0 = true → v.bit 0 = false → (t.ten n).rstBusy = true) ∧ ∀ m, (t.ten m).keys = (s.ten m).keys) ∧
    (∀ r w, Served s r page Off.TEN_TEN_BIND w →
      Does (.tenBind r n w) s (served (stored s .ten page Off.TEN_TEN_BIND w) r 0)) ∧
    (∀ r w, Served s r page Off.TEN_TEN_CMD w →
      (w.bit 0 = true → (s.ten n).rstBusy = false → Reaches (.reset r n w) s fun t => (t.ten n).rstBusy = true ∧
        t.ctr page 0x088 = min ctrMax (s.ctr page 0x088 + 1) ∧ (∀ m, (t.ten m).keys = (s.ten m).keys) ∧
        ∀ k o, storeFind t.fratra.ops k = some o → o.id.tenant ≠ n) ∧
      (w.bit 0 = false → w.bit 1 = true →
        Does (.purge r n w) s (served (setTen s n { s.ten n with purgeBusy := true }) r 0))) ∧
    ((s.ten n).rstBusy = true → Reaches (.resetDone n) s fun t => (t.ten n).rstBusy = false ∧
      t.bit page Off.IRQ_FLAG 0 = true ∧ (∀ c, c ∈ t.fratra.streams → c.id.tenant ≠ n) ∧
      (∀ k o, storeFind t.fratra.ops k = some o → o.id.tenant ≠ n) ∧ ∀ m, (t.ten m).keys = (s.ten m).keys) ∧
    ((s.ten n).rstBusy = false → Does (.resetDone n) s s) ∧
    ((s.ten n).purgeBusy = true → Reaches (.purgeDone n) s fun t => (t.ten n).purgeBusy = false ∧ (t.ten n).keys = [] ∧
      t.bit page Off.IRQ_FLAG 10 = true ∧ (t.ten n).verCtr = (s.ten n).verCtr ∧
      (∀ w, w ∈ t.fratra.swaps → w.tenant ≠ n) ∧ (s.bit page Off.TEN_TEN_CFG 7 = true → storeFind t.sec.slots n = none) ∧
      ∀ m, m ≠ n → (t.ten m).keys = (s.ten m).keys) ∧
    ((s.ten n).purgeBusy = false → Does (.purgeDone n) s s)) ∧
  (∀ s : State,
    (s.inRun = true → s.bit Pg.KVX Off.KVX_INC_CFG 0 = true → s.mirrored s.incTenant = false →
      let w := s.fratra.incident
      let lo : Int := (s.ft.ns : Int) - (s.preNs : Int)
      let hi := s.ft.ns + s.postNs
      Reaches .incidentEvent s fun t =>
        t.fratra.incident = { openNow := true, tenant := s.incTenant, startNs := if w.openNow then min w.startNs lo else lo
                              endNs := hi, events := (w.events + 1) % 65536 } ∧
        t.ctr Pg.KVX 0x058 = min ctrMax (s.ctr Pg.KVX 0x058 + 1) ∧
        (w.openNow = false → t.bit Pg.KVX Off.IRQ_FLAG 0 = true) ∧
        (∀ key e, s.findKey s.incTenant key = some e → spanMeets e lo hi = true →
          ∃ d, t.findKey s.incTenant key = some d ∧ d.incident = true) ∧
        ∀ m, m ≠ s.incTenant → (t.ten m).keys = (s.ten m).keys) ∧
    (s.inRun = false ∨ s.bit Pg.KVX Off.KVX_INC_CFG 0 = false → Does .incidentEvent s s) ∧
    (s.fratra.incident.openNow = true → Does .incClose s (raise { s with fratra := { s.fratra with
      incident := { s.fratra.incident with openNow := false } } } Pg.KVX 2)) ∧
    (s.fratra.incident.openNow = false → Does .incClose s s))

/-! ## Flash translation, NAND and health (chapters 09, 10) -/

/-- R249 to R255, R261, R278: the write-back of a logical sheaf that is due, while the LUNs take it and the die queue
selects its tenant: a whole sheaf is programmed as a slot, a mapped one that is wholly dirty or rewritten too, the
rest grain by grain in a sheaf that is GRAIN; else nothing happens. A program that ends well moves the map to where it
lies and releases the bytes it wrote, a fold's unless the fold was abandoned; a failed one retires its block.
Readings: log 108, 127, 132, 134. -/
def Obligations.WriteBackAndPrograms : Prop :=
  (∀ (s : State) (h : Nat),
    let gs := dirtyIdle s h
    let x := s.sheaf h
    let go := s.inRun = true ∧ allFloor s = false ∧ writeDue s h = true ∧ gs ≠ []
    (¬ go → Does (.writeBack h) s s) ∧
    (go → nextProgram s .due h = none → Does (.writeBack h) s s) ∧
    ∀ lun cost, go → nextProgram s .due h = some (lun, cost) →
      (dieTurn s .due lun x.tenant cost = none → Does (.writeBack h) s s) ∧
      ((dieTurn s .due lun x.tenant cost).isSome = true →
        (x.mapping = 0 →
          (x.whole = true ∧ gs.length = 256 → Does (.writeBack h) s (programSlot s .due h x.rot none)) ∧
          (x.whole = false ∨ gs.length ≠ 256 → Does (.writeBack h) s (programGrains 256 .due (makeGrain s h) h gs))) ∧
        (x.mapping = 1 → 256 ≤ gs.length → Does (.writeBack h) s (programSlot s .due h x.rot none)) ∧
        (x.mapping = 1 → gs.length < 256 →
          let u := countPartial s h
          (rewrites s h = true ∨ regionFits s = false → Does (.writeBack h) s (programSlot u .due h x.rot none)) ∧
          (rewrites s h = false → regionFits s = true →
            Does (.writeBack h) s (programGrains 256 .due (makeGrain u h) h gs))) ∧
        (x.mapping = 2 → Does (.writeBack h) s (programGrains 256 .due (touchRegion s h) h gs)))) ∧
  ∀ (s : State) (n : Nat),
    (∀ p h, storeFind s.ftl.progs n = some p → p.held = false → p.slotOf = some h → p.fold = none →
      s.sheaf h ≠ noSheaf → (s.sheaf h).mapping ≠ 2 → Reaches (.programDone n) s fun t =>
        (t.sheaf h).mapping = 1 ∧ (t.sheaf h).slot = some { lun := p.lun, block := p.block, pos := p.pos } ∧
        storeFind t.ftl.progs n = none ∧ (t.lun p.lun).failRun = [] ∧ (t.lun p.lun).timeouts = 0 ∧
        t.ctr Pg.FTL 0x040 = min ctrMax (s.ctr Pg.FTL 0x040 + 4096 * p.refs.length) ∧
        (∀ rs, rs ∈ p.refs.zip p.stamps → storeFind (t.sheaf rs.1.sheaf).dirty rs.1.grain ≠ some rs.2) ∧
        ∀ m, (t.ten m).keys = (s.ten m).keys) ∧
    (∀ p h k, storeFind s.ftl.progs n = some p → p.held = false → p.slotOf = some h → p.fold = some k →
      Reaches (.programDone n) s fun t => storeFind t.ftl.progs n = none ∧
        ((s.sheaf h).folding = some k → t.sheaf h = { s.sheaf h with
          mapping := 1, slot := some { lun := p.lun, block := p.block, pos := p.pos }, grains := [], resident := false
          folding := none, partials := [] }) ∧
        ((s.sheaf h).folding ≠ some k → t.sheaf h = s.sheaf h)) ∧
    (storeFind s.ftl.progs n = none → Does (.programDone n) s s ∧ Does (.programFail n) s s) ∧
    (∀ p, storeFind s.ftl.progs n = some p → p.held = true → Does (.programDone n) s s ∧ Does (.programFail n) s s) ∧
    ∀ p, storeFind s.ftl.progs n = some p → p.held = false → Reaches (.programFail n) s fun t =>
      t.ftl.health.grownBad = s.ftl.health.grownBad + 1 ∧ t.bit Pg.HLTH Off.IRQ_FLAG 1 = true ∧
      t.ctr Pg.HLTH 0x040 = min ctrMax (s.ctr Pg.HLTH 0x040 + 1)

/-- R251, R260 to R264, R273, R277, R279, R312: refresh, gleaning and wear moves begin on a LUN that serves their kind
now, the refresh of the block first queued, the wear move of the block erased least; SWITCH passes over a unit that is
no longer there, and moves a whole slot or a grain to its new place in its turn at the die queue, as Table 9.8 gives
it: after every tenant in IDLE, before Heart and Base in URGENT and for refresh, before all at FLOOR; an erase frees
its block with the ESN of its intent; a failed one retires it; a fold programs a GRAIN sheaf as a slot again; else
nothing begins. Readings: log
108, 132, 142. -/
def Obligations.UpkeepMoves : Prop :=
  ∀ (s : State) (lun : Nat),
    (∀ b, serves s lun 3 = true → (s.lun lun).upkeep ≠ 0 → gleanVictim s lun = some b →
      Does (.gleaning lun) s (startMove lun 3 b s)) ∧
    (serves s lun 3 = false ∨ (s.lun lun).upkeep = 0 ∨ gleanVictim s lun = none → Does (.gleaning lun) s s) ∧
    (∀ b, refreshNext s lun = some b → serves s lun 2 = true → Does (.refresh lun) s (startMove lun 2 b s)) ∧
    (serves s lun 2 = false ∨ refreshNext s lun = none → Does (.refresh lun) s s) ∧
    (let u := wearCheck s lun
      let go := serves u lun 5 = true ∧ (u.lun lun).wearPending = true
      let closed := (u.lun lun).blocks.filter (movable u lun)
      (go → closed ≠ [] → ∃ b, b ∈ closed.map Prod.fst ∧
        (∀ c, c ∈ closed.map Prod.fst → storeLook (u.lun lun).eraseCnt b 0 ≤ storeLook (u.lun lun).eraseCnt c 0) ∧
        Does (.wearMove lun) s (startMove lun 5 b u)) ∧
      (¬ go ∨ closed = [] → Does (.wearMove lun) s u)) ∧
    ((s.lun lun).move = none → Does (.switch lun) s s) ∧
    (∀ m, (s.lun lun).move = some m → upkeepRuns s = false ∨ lunTraining s lun = true ∨ kindPaused s lun m.kind = true →
      Does (.switch lun) s s) ∧
    (∀ m, (s.lun lun).move = some m → upkeepRuns s = true → lunTraining s lun = false → kindPaused s lun m.kind = false →
      (m.left = [] → Does (.switch lun) s (endMove lun m s)) ∧
      ∀ r rest, m.left = r :: rest →
        (rest ≠ [] → unitThere s lun m r = false →
          Does (.switch lun) s (setLun s lun { s.lun lun with move := some { m with left := rest } })) ∧
        (unitThere s lun m r = true → switchTurn s lun m = none → Does (.switch lun) s s) ∧
        (∀ v b u, unitThere s lun m r = true → switchTurn s lun m = some v →
          (s.sheaf r.sheaf).mapping = 1 → (s.sheaf r.sheaf).dead = [] → blockFor v lun 3 256 = (some b, u) →
          Reaches (.switch lun) s fun t =>
            (t.sheaf r.sheaf).slot = some
              { lun := lun, block := b, pos := ((storeFind (u.lun lun).blocks b).map fun x => x.refs.length).getD 0 } ∧
            ∀ h, h ≠ r.sheaf → t.sheaf h = s.sheaf h) ∧
        (∀ v b u, unitThere s lun m r = true → switchTurn s lun m = some v →
          (s.sheaf r.sheaf).mapping = 2 → nearlyDead s r.sheaf = false →
          blockFor (touchRegion v r.sheaf) lun 3 1 = (some b, u) → Reaches (.switch lun) s fun t =>
            storeFind (t.sheaf r.sheaf).grains r.grain = some
              { lun := lun, block := b, pos := ((storeFind (u.lun lun).blocks b).map fun x => x.refs.length).getD 0 } ∧
            (t.sheaf r.sheaf).folding = none ∧ ∀ h, h ≠ r.sheaf → t.sheaf h = s.sheaf h)) ∧
    (∀ b, (s.lun lun).heldErase.contains b = true → Does (.eraseDone lun b) s s ∧ Does (.eraseFail lun b) s s) ∧
    (∀ b e, storeFind (s.lun lun).erasing b = some e → (s.lun lun).heldErase.contains b = false →
      Reaches (.eraseDone lun b) s fun t =>
        storeFind (t.lun lun).erasing b = none ∧ storeFind (t.lun lun).blocks b = none ∧
        storeLook (t.lun lun).eraseCnt b 0 = storeLook (s.lun lun).eraseCnt b 0 + 1 ∧
        storeLook (t.lun lun).freeEsn b 0 = e ∧ ∀ m, m ≠ lun → t.lun m = s.lun m) ∧
    (∀ b e, storeFind (s.lun lun).erasing b = some e → (s.lun lun).heldErase.contains b = false →
      Reaches (.eraseFail lun b) s fun t => t.ftl.health.grownBad = s.ftl.health.grownBad + 1 ∧ t.bit Pg.HLTH Off.IRQ_FLAG 1 = true ∧
        t.ctr Pg.HLTH 0x048 = min ctrMax (s.ctr Pg.HLTH 0x048 + 1)) ∧
    (∀ b, storeFind (s.lun lun).erasing b = none → Does (.eraseDone lun b) s s ∧ Does (.eraseFail lun b) s s) ∧
    (∀ kind cost, let ts := dieTenants s lun none
      let own := (s.lun lun).upkeep
      ((kind ≤ 2 ∨ own = 2) → ((upkeepTurn s lun (kind, cost)).isSome = true ↔
        ∀ b, b ∈ ts → b.note = 0 → s.tokensOf b.tenant 1 ≤ 0)) ∧
      (2 < kind → own = 0 → ((upkeepTurn s lun (kind, cost)).isSome = true ↔ ts = [])) ∧
      (2 < kind → own = 3 → (upkeepTurn s lun (kind, cost)).isSome = true)) ∧
    ∀ h, let x := s.sheaf h
      let go (n : Nat) := foldDue s h = true ∧ foldYields s h = false ∧ serves s n 4 = true ∧
        (upkeepTurn s n (4, 1048576)).isSome = true
      (foldDue s h = true ↔ x.mapping = 2 ∧ sheafClosed x = true ∧ x.dirty = [] ∧ x.folding = none ∧
        s.fld Pg.FTL Off.FTL_MAP_CFG 24 16 ≤ 256 - x.dead.length ∧
        x.lastWrite + s.fld Pg.FTL Off.FTL_COOL_CFG 15 0 * 1000000000 ≤ s.ft.ns) ∧
      (∀ n, foldLun s h = some n → go n → Reaches (.fold h) s fun t =>
        (t.sheaf h).folding = some s.ftl.folds ∧ t.ftl.folds = s.ftl.folds + 1 ∧
        (t.ten x.tenant).rotPtr = (s.ten x.tenant).rotPtr + 1) ∧
      ((∀ n, foldLun s h = some n → ¬ go n) → Does (.fold h) s s)

/-- R238, R239, R260, R269 to R271, R275, R282 to R286: a read of a programmed codeword whose outcome the ladder can
have is counted, enters the correction histogram, or, uncorrectable, the error record, a patrol read only in the
patrol's turn, and not while the channel trains; GLEAN_CFG gives every LUN the state of its free blocks; a RETRAIN
runs once the channel's commands have finished, and its end leaves the rate trained and lets the held commands go, or
fails the channel's dies and excludes its LUNs; LUN_CMD and the third timeout in a row fail a die; a scan ends its
event. Readings: log 102, 132, 141. -/
def Obligations.NandHealth : Prop :=
  ∀ s : State,
    (∀ c : CwRead,
      let go := cwThere s c = true ∧ lunTraining s c.lun = false ∧ (c.patrol = true → (patrolTurn s c.lun).isSome = true)
      (∀ step hard soft, go → ladder s (s.lun c.lun).part (cwHint s c) c = some (step, hard, soft) →
        Reaches (.codewordRead c) s fun t =>
          t.ctr Pg.ECC 0x040 = min ctrMax (s.ctr Pg.ECC 0x040 + 1) ∧ (t.lun c.lun).cwRead = (s.lun c.lun).cwRead + 1 ∧
          (step ≠ 0 → t.ftl.health.uncorr = s.ftl.health.uncorr ∧
            storeLook t.ftl.health.hist (histBin c.bits) 0 = storeLook s.ftl.health.hist (histBin c.bits) 0 + 1) ∧
          (step = 0 → t.ftl.health.uncorr = s.ftl.health.uncorr + 1 ∧ t.bit Pg.ECC Off.IRQ_FLAG 0 = true ∧
            t.ctr Pg.ECC 0x070 = min ctrMax (s.ctr Pg.ECC 0x070 + 1))) ∧
      (¬ go ∨ ladder s (s.lun c.lun).part (cwHint s c) c = none → Does (.codewordRead c) s s)) ∧
    (∀ r w, Served s r Pg.FTL Off.FTL_GLEAN_CFG w →
      let u := stored s .ftl Pg.FTL Off.FTL_GLEAN_CFG w
      Does (.gleanCfg r w) s (served (gleanCfgApply u) r 0) ∧
        ∀ n, (storeFind s.ftl.luns n).isSome = true →
          ((gleanCfgApply u).lun n).upkeep = upkeepFresh u (freeBlocks s (s.lun n))) ∧
    (∀ r k w, k < 16 → Served s r (Pg.NCH k) Off.NCH_NCH_CMD w → w.bit 0 = true →
      Does (.nchRetrain r k w) s (served (setChan s k fun c => { c with training := true }) r 0)) ∧
    (∀ k, (s.chan k).training = false ∨ chanBusy s k = true → ∀ rate, Does (.retrainDone k rate) s s) ∧
    (∀ k, (s.chan k).training = true → chanBusy s k = false →
      (chanLuns s k = [] → ∀ rate, Does (.retrainDone k rate) s (raise (setChan s k fun c =>
        { c with training := false, trained := false, rate := 0, iface := 0 }) (Pg.NCH k) 2)) ∧
      (chanLuns s k ≠ [] → ∀ rate, Reaches (.retrainDone k (some rate)) s fun t =>
        (t.chan k).rate = rate ∧ (t.chan k).trained = true ∧ (t.chan k).training = false ∧
        t.bit (Pg.NCH k) Off.IRQ_FLAG 1 = true ∧
        (∀ n, t.lun n = if lunChan n = k then { s.lun n with heldErase := [] } else s.lun n) ∧
        ∀ e, e ∈ t.ftl.progs → lunChan e.2.lun = k → e.2.held = false) ∧
      (chanLuns s k ≠ [] → Reaches (.retrainDone k none) s fun t =>
        (t.chan k).trained = false ∧ (t.chan k).training = false ∧ t.bit (Pg.NCH k) Off.IRQ_FLAG 0 = true ∧
        ∀ n, n ∈ chanLuns s k → lunInOrder (t.lun n) = false ∧ (t.lun n).excluded = true)) ∧
    (∀ r w, Served s r Pg.HLTH Off.HLTH_LUN_CMD w → w.bit 12 = true →
      Does (.lunCmd r w) s (served (failDie (w.fld 8 0) 4 (stored s .hlth Pg.HLTH Off.HLTH_LUN_CMD w)) r 0)) ∧
    (∀ n, lunInOrder (s.lun n) = true →
      (s.inRun = true → 2 ≤ (s.lun n).timeouts → Does (.commandTimeout n) s (failDie n 1 s)) ∧
      (s.inRun = true → (s.lun n).timeouts < 2 →
        Does (.commandTimeout n) s (setLun s n { s.lun n with timeouts := (s.lun n).timeouts + 1 })) ∧
      ∀ cause, ((failDie n cause s).lun n).failed = true ∧
        (failDie n cause s).ftl.health.failedDies = s.ftl.health.failedDies + 1 ∧
        (failDie n cause s).bit Pg.HLTH Off.IRQ_FLAG 0 = true) ∧
    (∀ e, (s.ftl.health.events.find? fun v => v.identRunning) = some e → Reaches .identDone s fun t =>
      t.bit Pg.HLTH Off.IRQ_FLAG 6 = true ∧
      ∀ v, v ∈ t.ftl.health.events → v.num = e.num → v.identRunning = false) ∧
    ((s.ftl.health.events.find? fun v => v.identRunning) = none → Does .identDone s s)

/-- R258, R259, R267, R275, R290, R295: an uncorrectable DRAM word is recorded with its address, by region, a
write-buffer word opening a health-log event, the index then rebuilding until REBUILD_DONE; a scrub pass counts what
it read and corrected; a patrol pass that has read every page ends and the next begins, or it is overdue at its end
time; temperatures are kept with their greatest, and the greatest of each minute enters its bin. Readings: log 127. -/
def Obligations.DramPatrolTemperature : Prop :=
  ∀ s : State,
    (∀ a, let u := raise (bump { s with ftl := { s.ftl with dram := { s.ftl.dram with lastAddr := a } } } Pg.DRAM 0x048) Pg.DRAM 2
      Does (.dramUncorrectable a .work) s (internalErr u Pg.DRAM 0x42) ∧
      Does (.dramUncorrectable a .cache) s (internalErr u Pg.DRAM 0x43) ∧
      (Reaches (.dramUncorrectable a (.writeBuffer [])) s fun t =>
        t.ftl.dram.lastAddr = a ∧ t.bit Pg.DRAM Off.IRQ_FLAG 1 = true ∧
        t.ctr Pg.DRAM 0x048 = min ctrMax (s.ctr Pg.DRAM 0x048 + 1) ∧
        t.ftl.health.eventNum = s.ftl.health.eventNum + 1 ∧
        ∃ e, e ∈ t.ftl.health.events ∧ e.num = s.ftl.health.eventNum + 1 ∧ e.cause = 7 ∧ e.lun = 0xFFFF) ∧
      Does (.dramUncorrectable a .index) s (internalErr { u with ftl := { u.ftl with
        dram := { u.ftl.dram with rebuilding := s.ftl.dram.rebuilding + 1 } } } Pg.DRAM 0x41)) ∧
    (s.ftl.dram.rebuilding ≠ 0 → Does .rebuildDone s (raise { s with ftl := { s.ftl with
      dram := { s.ftl.dram with rebuilding := s.ftl.dram.rebuilding - 1 } } } Pg.DRAM 8)) ∧
    (s.ftl.dram.rebuilding = 0 → Does .rebuildDone s s) ∧
    (s.bit Pg.DRAM Off.DRAM_SCRUB_CFG 8 = true →
      let u := bumpBy (bump s Pg.DRAM 0x050) Pg.DRAM 0x070 (s.ftl.dram.gib * 2 ^ 30)
      Does (.scrubPass 0) s u ∧ ∀ n, 0 < n → Does (.scrubPass n) s (raise (bumpBy u Pg.DRAM 0x040 n) Pg.DRAM 1)) ∧
    (s.bit Pg.DRAM Off.DRAM_SCRUB_CFG 8 = false → ∀ n, Does (.scrubPass n) s s) ∧
    (∀ up, Does (.tempDerate up) s { s with ftl := { s.ftl with dram := { s.ftl.dram with derate := up } } }) ∧
    (let go := s.bit Pg.ECC Off.ECC_PATROL_CFG 8 = true ∧ s.inRun = true ∧ s.en Pg.FTL = true ∧
        ∀ p, p ∈ patrolPages s → p ∈ s.ftl.health.patrolRead
     (go → Does .patrolDone s (raise (onHealth s fun h =>
        { h with patrolPasses := (h.patrolPasses + 1) % 65536, patrolStart := s.ft.ns, patrolOverdue := false
                 patrolRead := [] }) Pg.ECC 4)) ∧
      (¬ go → Does .patrolDone s s)) ∧
    (s.bit Pg.ECC Off.ECC_PATROL_CFG 8 = true → patrolLate s = true →
      Does .patrolOverdue s (onHealth s fun h => { h with patrolOverdue := true })) ∧
    (s.bit Pg.ECC Off.ECC_PATROL_CFG 8 = false ∨ patrolLate s = false → Does .patrolOverdue s s) ∧
    (s.coreOn = true → ∀ c : Int,
      let h := s.ftl.health
      let top := (h.minuteMax.map fun m => max m c).getD c
      (h.samples < 59 → Does (.tempSample c) s (onHealth s fun h =>
        { h with tempNow := c, tempMax := max h.tempMax c, minuteMax := some top, samples := h.samples + 1 })) ∧
      (59 ≤ h.samples → Reaches (.tempSample c) s fun t =>
        t.ftl.health.tempNow = c ∧ t.ftl.health.tempMax = max h.tempMax c ∧ t.ftl.health.minuteMax = none ∧
        t.ftl.health.samples = 0 ∧
        storeLook t.ftl.health.tempBins (tempBin top) 0 = storeLook h.tempBins (tempBin top) 0 + 1 ∧
        t.ftl.health.minAbove = h.minAbove + if tempLimit s < top then 1 else 0)) ∧
    (s.coreOn = false → ∀ c, Does (.tempSample c) s s)

/-! ## The Accord link and the pair (chapter 12) -/

/-- R325 to R332: training: TS1 sets lock lanes in DETECT, end it once a locked lane sees more, and equalise lanes in
EQUALIZE, where a ninth preset request drops a lane; TS2 aligns a lane within 32 blocks; HELLO settles ranks and
partner; WIDTH brings the link to ACTIVE at the smaller proposal; a state that fails its limit starts over; in DETECT
at RATE 0 the next rate is tried; RETRAIN and WIDTH_SET ask for what they say. Readings: log 84, 85, 86, 87, 136. -/
def Obligations.LinkTraining : Prop :=
  ∀ s : State,
    (∀ t : Ts1, t.lane < 4 → laneTrains s t.lane = true → t.rate = s.acd.rate →
      (s.acd.train = 1 → (s.lane t.lane).locked = false → t.locked = true →
        Does (.ts1 t) s (onLane (bumpBy s (Pg.ACL t.lane) 0x050 8) t.lane fun l => { l with locked := true })) ∧
      (s.acd.train = 1 → (s.lane t.lane).locked = false → t.locked = false →
        Does (.ts1 t) s (bumpBy s (Pg.ACL t.lane) 0x050 8)) ∧
      (s.acd.train = 2 → s.acd.good.getLsbD t.lane = true → 8 ≤ (s.lane t.lane).requests → t.request ≠ 0 →
        Does (.ts1 t) s (equalizeDone (dropLane (bumpBy s (Pg.ACL t.lane) 0x050 8) t.lane))) ∧
      (s.acd.train ≠ 1 → s.acd.train ≠ 2 ∨ s.acd.good.getLsbD t.lane = false → Does (.ts1 t) s s) ∧
      (s.acd.train = 1 → (s.lane t.lane).locked = true → Reaches (.ts1 t) s fun u => u.acd.train = 2 ∧
        u.acd.lanes = s.acd.lanes ∧ ∀ n, n < 4 → u.acd.good.getLsbD n = (s.lane n).locked) ∧
      (s.acd.train = 2 → s.acd.good.getLsbD t.lane = true →
        (if t.request ≠ 0 then (s.lane t.lane).requests + 1 else (s.lane t.lane).requests) ≤ 8 →
        Reaches (.ts1 t) s fun u => (u.lane t.lane).eqDone = ((s.lane t.lane).eqDone || t.eqDone) ∧
          (u.lane t.lane).eyeH = t.eyeH ∧ (u.lane t.lane).eyeV = t.eyeV ∧ u.acd.good = s.acd.good ∧
          u.acd.train = if (goodLanes u).all (fun n => (u.lane n).eqDone) then 3 else 2)) ∧
    (∀ t : Ts1, 4 ≤ t.lane ∨ laneTrains s t.lane = false ∨ t.rate ≠ s.acd.rate → Does (.ts1 t) s s) ∧
    (∀ n good skew, s.acd.train = 3 → n < 4 → s.acd.good.getLsbD n = true →
      let u := onAcd (bump s (Pg.ACL n) 0x050) fun a => { a with twinGood := good }
      (skew ≤ 32 → Does (.ts2 n good skew) s (onAcd (onLane u n fun l => { l with aligned := true, skew := skew }) fun a =>
        { a with rows := 0 })) ∧
      (32 < skew → Does (.ts2 n good skew) s u)) ∧
    (∀ h : Hello, s.acd.train = 3 → (goodLanes s).all (fun n => (s.lane n).aligned) = true →
      (h.rank = s.rank → Reaches (.hello h) s fun t =>
        t.acd.rankConflict = true ∧ t.acd.pair = .joining ∧ t.acd.train = 3) ∧
      (h.rank ≠ s.rank → s.acd.partner = h.serial → h.serial ≠ 0 → h.knowsYou = true →
        Does (.hello h) s (onAcd s fun a => { a with twin := some h, twinGood := h.good, twinEpoch := h.epoch
                                                     rankConflict := false, helloOk := true, train := 4 })) ∧
      (h.rank ≠ s.rank → s.acd.partner = 0 → h.third = false → (holdsKeys s && h.holdsKeys) = false → Reaches (.hello h) s fun t =>
        t.acd.partner = h.serial ∧ t.acd.epoch = max s.acd.epoch h.epoch ∧ t.acd.helloOk = true ∧ t.acd.train = 4) ∧
      (h.rank ≠ s.rank → s.acd.partner ≠ 0 → s.acd.partner ≠ h.serial → s.acd.adopt = none → Reaches (.hello h) s fun t =>
        t.acd.pair = .foreign ∧ t.acd.partner = s.acd.partner ∧ t.acd.train = 4)) ∧
    (∀ width lanes, s.acd.train = 4 → min (proposedWidth s) width ≠ 0 → Reaches (.width width lanes) s fun t =>
      t.acd.train = 5 ∧ t.acd.width = min (proposedWidth s) width ∧ t.acd.hadActive = true ∧
      (s.acd.viaDetect = true → t.bit Pg.ACD Off.IRQ_FLAG 0 = true) ∧
      (s.acd.helloOk = true → s.acd.pair ≠ .paired → t.acd.pair = .catchup ∨ t.acd.pair = .paired) ∧
      (s.acd.helloOk = false → t.acd.pair = s.acd.pair)) ∧
    (∀ width lanes, s.acd.train ≠ 4 ∨ min (proposedWidth s) width = 0 → Does (.width width lanes) s s) ∧
    (s.acd.train = 0 ∨ s.acd.train = 5 ∨ s.acd.rankConflict = true → Does .trainLimit s s) ∧
    (s.acd.rankConflict = false →
      let passed := (goodLanes s).filter fun n => (s.lane n).eqDone
      (s.acd.train = 2 → passed ≠ [] → Reaches .trainLimit s fun t => t.acd.train = 3 ∧ goodLanes t = passed) ∧
      (s.acd.train = 1 ∨ (s.acd.train = 2 ∧ passed = []) ∨ s.acd.train = 3 ∨ s.acd.train = 4 → Reaches .trainLimit s fun t =>
        t.acd.train = 1 ∧ t.acd.lanes = [] ∧ t.acd.good = 0)) ∧
    (s.acd.train = 1 → s.fld Pg.ACD Off.ACD_ACD_CFG 1 0 = 0 → Does .rateDwell s (onAcd s fun a =>
      { a with rate := if a.rate ≤ 1 then 3 else a.rate - 1, lanes := [] })) ∧
    (s.acd.train ≠ 1 ∨ s.fld Pg.ACD Off.ACD_ACD_CFG 1 0 ≠ 0 → Does .rateDwell s s) ∧
    (s.bit Pg.ACD Off.ACD_ACD_CFG 9 = true → s.acd.width < min s.maxWidth ((s.acd.twin.map Hello.maxWidth).getD 4) →
      Does .autoWiden s (requestLink s .retrain)) ∧
    (s.bit Pg.ACD Off.ACD_ACD_CFG 9 = false ∨ min s.maxWidth ((s.acd.twin.map Hello.maxWidth).getD 4) ≤ s.acd.width →
      Does .autoWiden s s) ∧
    ∀ r w, Served s r Pg.ACD Off.ACD_ACD_CMD w → s.acd.reqPending = none →
      (w.bit 0 = true → Reaches (.acdRetrain r w) s fun t => t.acd.reqPending = some .retrain ∧ t.acd.train = 5) ∧
      (w.bit 0 = false → w.bit 1 = true → Reaches (.widthSet r w) s fun t =>
        t.acd.reqPending = some (.width (w.fld 6 4)) ∧ t.acd.train = 5)

/-- R330, R331, R333 to R338, R347 to R349, R359: a flit is 72 bytes, nine blocks, and a row takes the next blocks of
the stream in order; a LINK flit acknowledges, returns credits and asks for replay, the lane counters following it
(the model's choice, log 136); a tick's flits leave within the retry buffer, with a LINK flit; a replay starts from
the oldest held; CRC errors, lost locks and missed heartbeats are counted and have their consequence, the eighth miss
being Accord loss. Readings: log 84, 86, 87, 88, 90, 128, 129, 130. -/
def Obligations.LinkTraffic : Prop :=
  (∀ (vc fseq : Nat) (f : FlitBody), f.payload.length ≤ 64 →
    let bs := flitBytes vc fseq f
    bs.length = 72 ∧ (flitBlocks bs).length = 9 ∧ (flitBlocks bs).flatMap LineBlock.bytes = bs) ∧
  ∀ s : State,
    (s.acd.train = 5 → s.acd.rows < 4096 → s.acd.width ≤ s.acd.blocks.length →
      (nextRow s).acd.row.length = s.acd.width ∧ (nextRow s).acd.row ++ (nextRow s).acd.blocks = s.acd.blocks) ∧
    (∀ f : LinkFlit, linkTakes s = false → Does (.linkFlit f) s s) ∧
    (∀ f : LinkFlit, linkTakes s = true → Reaches (.linkFlit f) s fun t =>
      (∀ n, n < 4 → t.ctr (Pg.ACL n) 0x040 = min ctrMax (s.ctr (Pg.ACL n) 0x040 + f.blockErr.getD n 0) ∧
        t.ctr (Pg.ACL n) 0x058 = min ctrMax (s.ctr (Pg.ACL n) 0x058 + f.skpAdj.getD n 0)) ∧
      t.acd.twinEpoch = f.epoch ∧ t.acd.poolFree = f.poolFree ∧ t.acd.hbOk = (s.acd.hbOk || f.hb) ∧
      t.acd.retry = s.acd.retry.filter (fun h => !fseqLe h.fseq f.ack) ∧
      (∀ vc, vc < 3 → t.vcCredits vc = min (vcInitial vc) (s.vcCredits vc +
        (f.credits.getD vc 0 % 65536 + 65536 - storeLook s.acd.seenReturned vc 0) % 65536)) ∧
      (f.nak = true → (t.acd.retry.filter fun h => fseqLe f.nakFseq h.fseq) ≠ [] →
        t.acd.replay = (t.acd.retry.filter fun h => fseqLe f.nakFseq h.fseq).map HeldFlit.fseq) ∧
      (s.acd.reqPending = none → f.nak = false → f.echo = false → f.retrain = true → t.acd.train = 2)) ∧
    (∀ hb, s.acd.train = 5 → Reaches (.linkFlitSend hb) s fun t =>
      t.acd.replay = [] ∧ t.acd.retry.length ≤ max 4096 s.acd.retry.length ∧
      (∃ f, t.acd.sentLink = some f ∧ f.hb = hb ∧ f.ack = (s.acd.fseqExp + 65535) % 65536 ∧ f.epoch = s.acd.epoch) ∧
      t.acd.hbSeq = if hb then (s.acd.hbSeq + 1) % 2 ^ 32 else s.acd.hbSeq) ∧
    (∀ hb, s.acd.train ≠ 5 → Does (.linkFlitSend hb) s s) ∧
    (s.acd.train = 5 → s.acd.retry ≠ [] → Reaches .replayTimeout s fun t =>
      t.acd.replay = s.acd.retry.map HeldFlit.fseq ∧ t.acd.retry = s.acd.retry ∧
      t.ctr Pg.ACD 0x060 = min ctrMax (s.ctr Pg.ACD 0x060 + 1) ∧ t.ctr Pg.ACD 0x058 = min ctrMax (s.ctr Pg.ACD 0x058 + 1)) ∧
    (s.acd.train ≠ 5 ∨ s.acd.retry = [] → Does .replayTimeout s s) ∧
    (s.acd.train = 5 → Does .crcErr s (sendLink (onAcd (bump s Pg.ACD 0x050) fun a => { a with nakOut := true }) false false)) ∧
    (s.acd.train ≠ 5 → Does .crcErr s s) ∧
    (∀ n, n < 4 → (s.lane n).locked = true → Reaches (.lockLost n) s fun t => (t.lane n).locked = false ∧
      t.bit (Pg.ACL n) Off.IRQ_FLAG 0 = true ∧ t.ctr (Pg.ACL n) 0x048 = min ctrMax (s.ctr (Pg.ACL n) 0x048 + 1) ∧
      (s.acd.train = 5 → (∃ m, m < 4 ∧ m ≠ n ∧ (s.lane m).locked = true) → (s.lane n).inUse = true →
        s.acd.reqPending = none → t.acd.reqPending = some .retrain ∧ t.acd.train = 5) ∧
      (s.acd.train = 5 → s.acd.rankConflict = false → (∀ m, m < 4 → m ≠ n → (s.lane m).locked = false) →
        t.acd.train = 1 ∧ t.acd.grace = true ∧ t.acd.retry = s.acd.retry ∧ t.acd.pair = s.acd.pair)) ∧
    (∀ n, 4 ≤ n ∨ (s.lane n).locked = false → Does (.lockLost n) s s) ∧
    (s.acd.train = 5 → s.acd.grace = false → s.pwr.state ≠ .harvest →
      (s.acd.misses < 7 → Does .hbMiss s (onAcd (bump s Pg.ACD 0x068) fun a =>
        { a with misses := a.misses + 1, hbOk := false })) ∧
      (7 ≤ s.acd.misses → Reaches .hbMiss s fun t => t.acd.train = 1 ∧ t.acd.retry = [] ∧ t.acd.hbOk = false ∧
        (s.acd.pair = .paired ∨ s.acd.pair = .catchup → s.acd.rankConflict = false →
          t.acd.pair = (if s.acd.ethPath then Pair.split else Pair.isolated) ∧ t.acd.backlog = []))) ∧
    (s.acd.train ≠ 5 ∨ s.acd.grace = true ∨ s.pwr.state = .harvest → Does .hbMiss s s) ∧
    (s.acd.grace = true → s.pwr.state ≠ .harvest →
      (s.acd.train = 5 → Does .retrainGraceExpire s (onAcd s fun a => { a with grace := false })) ∧
      (s.acd.train ≠ 5 → Does .retrainGraceExpire s (declareLoss s))) ∧
    (s.acd.grace = false ∨ s.pwr.state = .harvest → Does .retrainGraceExpire s s)

/-- R181, R339 to R346, R352, R355, R356: no message is taken while the link is not ACTIVE; the follower applies the
lead's writes in MSEQ order with the lead's version and epoch and acknowledges them, as far as the Harvest budget
takes their bytes (R13); an acknowledgement ends the waits it covers; rank 1 takes the tenants' LEAD, MIRROR and
ACTIVE from the map; a NOTICE leads to AWAY; a key asked for is answered, and an answer heals its key. Readings: log
18, 19, 24, 89, 90, 91, 128, 131. -/
def Obligations.Mirroring : Prop :=
  ∀ s : State,
    (linkTakes s = false → ∀ n q m v map kind e macs links c part kq d full l,
      Does (.mirror n q m) s s ∧ Does (.mirrorAck n q v) s s ∧ Does (.leadMap map) s s ∧ Does (.notice kind e q) s s ∧
      Does (.incident n q) s s ∧ Does (.portMacs macs links) s s ∧ Does (.relay c part) s s ∧ Does (.keyReq kq) s s ∧
      Does (.keyData d) s s ∧ Does (.divList n full l) s s ∧ Does (.divEnd n q) s s) ∧
    (linkTakes s = true →
      (∀ n q m, s.acd.pair = .paired ∨ s.acd.pair = .catchup → s.mirrored n = true → s.leads n = false →
        (storeFind s.acd.mseqExp n).getD q = q → m.carriage.src.getLsbD 40 = false → opDefined m.opcode = true →
        let a := applyMirror (acceptFlits s (.mirror n q m)) n m
        let t := tell (onAcd a fun d =>
          { d with mseqExp := storeInsert d.mseqExp n ((q + 1) % 2 ^ 32)
                   handover := if storeLook d.handover n 0 = 1 then storeInsert d.handover n 2 else d.handover })
          (.mirrorAck n q m.version)
        (ifRoom s t = t → Does (.mirror n q m) s t) ∧
        t.acd.out = s.acd.out ++ [.mirrorAck n q m.version] ∧ (t.ten n).verCtr = max (s.ten n).verCtr m.version ∧
        (m.opcode = 0x10 → ∃ e, t.findKey n m.key = some e ∧ e.content = .value m.value ∧ e.version = m.version ∧
          e.epoch = s.acd.twinEpoch ∧ e.damage = .none) ∧
        (m.opcode = 0x14 → t.findKey n m.key = none) ∧
        ∀ key, key ≠ m.key → m.opcode = 0x10 ∨ m.opcode = 0x14 → t.findKey n key = s.findKey n key) ∧
      (∀ n q m, let u := acceptFlits s (.mirror n q m)
        (m.carriage.src.getLsbD 40 = true → Does (.mirror n q m) s (bump u Pg.FWP 0x040)) ∧
        (m.carriage.src.getLsbD 40 = false →
          opDefined m.opcode = false ∨ (storeFind s.acd.mseqExp n).getD q ≠ q → Does (.mirror n q m) s u)) ∧
      (∀ n q v, Reaches (.mirrorAck n q v) s fun t =>
        t.acd.backlog = s.acd.backlog.filter (fun b => !(decide (b.tenant = n) && mseqLe b.mseq q)) ∧
        ∀ b k o f, b ∈ s.acd.backlog → b.tenant = n → mseqLe b.mseq q = true → b.waiting = some k →
          storeFind t.fratra.ops k = some o → o.phase ≠ .waitTwin f) ∧
      (∀ map, s.rank = 1 → s.acd.pair ≠ .catchup → Reaches (.leadMap map) s fun t =>
        t.acd.twinMap = map ∧ t.bit Pg.ACD Off.IRQ_FLAG 10 = true ∧ ∀ n, n < 64 →
          t.leadRank n = (map.getD n 0).toNat % 2 ∧ t.mirrorPolicy n = (map.getD n 0).toNat / 2 % 4 ∧
          t.tenActive n = (map.getD n 0).getLsbD 7) ∧
      (∀ map, s.rank = 0 → let u := acceptFlits s (.leadMap map)
        Does (.leadMap map) s (newlyDegraded u (onAcd u fun a => { a with twinMap := map }))) ∧
      (∀ kind e ns, (s.acd.pair = .paired ∨ s.acd.pair = .catchup → Reaches (.notice kind e ns) s fun t =>
          t.acd.pair = .away ∧ t.acd.twinEpoch = e ∧ t.acd.backlog = [] ∧
          t.acd.epoch = 2 * (max s.acd.epoch e / 2) + 2 + (1 - s.rank)) ∧
        (s.acd.pair ≠ .paired → s.acd.pair ≠ .catchup →
          Does (.notice kind e ns) s (onAcd (acceptFlits s (.notice kind e ns)) fun a => { a with twinEpoch := e }))) ∧
      (∀ n t, let u := acceptFlits s (.incident n t)
        ((s.bit Pg.KVX Off.KVX_INC_CFG 0 && s.mirrored n && s.leads n) = true → Does (.incident n t) s (applyIncident u n t)) ∧
        ((s.bit Pg.KVX Off.KVX_INC_CFG 0 && s.mirrored n && s.leads n) = false → Does (.incident n t) s u)) ∧
      (∀ macs links, Does (.portMacs macs links) s
        (onAcd (acceptFlits s (.portMacs macs links)) fun a => { a with twinMacs := macs, twinLinks := links })) ∧
      (∀ c part, let u := acceptFlits s (.relay c part)
        (s.acd.pair ≠ .paired → s.acd.pair ≠ .catchup → Does (.relay c part) s u) ∧
        (s.acd.pair = .paired ∨ s.acd.pair = .catchup →
          ((part.headD 0).getLsbD 3 = true →
            Does (.relay c part) s (sendTx u c.port { cls := 4, bytes := fratraFrame u c.port c.src c.vid 4 part })) ∧
          ((part.headD 0).getLsbD 3 = false →
            Does (.relay c part) s (arriveFrame u { c with kind := 2 } s.ft.ns part)))) ∧
      (∀ q e, q.nameLost = false → s.findKey q.tenant q.key = some e → e.damage = .none → Reaches (.keyReq q) s fun t =>
        t.acd.out = s.acd.out ++ [.keyData
          { tenant := q.tenant, epoch := e.epoch, present := true, deleted := false, absent := false, lost := false, key := e.key
            version := e.version, content := e.content }] ∧
        ∀ v, v ∈ storeLook t.acd.div q.tenant [] → v.key ≠ q.key) ∧
      (∀ d e, healTarget s d = some e → d.lost = false → d.present = true → newer e.epoch e.version d.epoch d.version = false →
        let n := d.tenant
        let u := healKey (acceptFlits s (.keyData d)) n e d (s.acd.toReceive.contains (n, e.key))
        let t := pairedCheck (healCheck (onAcd u fun a => { a with toReceive := a.toReceive.filter fun k => k ≠ (n, e.key) }))
        (ifRoom s t = t → Does (.keyData d) s t) ∧ (n ≠ 0 ∨ reservedKey d.key = false →
          ∃ k, t.findKey n d.key = some k ∧ k.content = d.content ∧ k.version = d.version ∧ k.epoch = d.epoch ∧
            k.damage = .none)) ∧
      (∀ d, healTarget s d = none → Does (.keyData d) s (pairedCheck (acceptFlits s (.keyData d)))) ∧
      (∀ n full l, s.acd.pair = .catchup → s.mirrored n = true → s.acd.resolved.contains n = false →
        let old := storeLook s.acd.twinDiv n (false, [])
        Does (.divList n full l) s (onAcd (acceptFlits s (.divList n full l)) fun a =>
          { a with twinDiv := storeInsert a.twinDiv n (old.1 || full, old.2 ++ l) })) ∧
      ∀ n count, let u := acceptFlits s (.divEnd n count)
        (s.acd.pair = .catchup → s.mirrored n = true → s.acd.resolved.contains n = false → Does (.divEnd n count) s
          (pairedCheck (resolveOn 65 (onAcd u fun a => { a with listEnded := setAdd a.listEnded n })))) ∧
        (s.acd.pair ≠ .catchup ∨ s.mirrored n = false ∨ s.acd.resolved.contains n = true →
          Does (.divEnd n count) s u ∧ ∀ full l, Does (.divList n full l) s (acceptFlits s (.divList n full l))))

/-- R323, R324, R344, R348 to R350, R353: the twin heartbeat keeps the Ethernet path up, and its loss turns SPLIT into ISOLATED;
a JOINING twin that nobody has joined separates; a lagging ASYNC tenant is noted; ADOPT, TAKEOVER and FORGET, when served.
Readings: log 85, 88, 90. -/
def Obligations.TwinPair : Prop :=
  ∀ s : State,
    (∀ k key, k < 4 → s.inRun = true → s.fld Pg.ACD Off.ACD_HB_CFG 19 16 = 2 ^ k → s.slotKey 64 = some key →
      let f : TxFrame := { cls := 4, bytes := beatFrame s k [] ++ (hmac256 key (beatFrame s k [])).take 16 }
      Does .twinHeartbeatSend s (onAcd (sendTx s k f) fun a => { a with ethSeq := (a.ethSeq + 1) % 2 ^ 32 }) ∧
      (s.portUp k = true → txTooLong s k f = false → (s.port k).cur = none → (s.port k).tx = [] → (s.port k).due = 0 →
        s.clsStopped k 4 = false → Reaches .twinHeartbeatSend s fun t => ∃ c, (t.port k).cur = some c ∧ c.frame = f)) ∧
    (s.inRun = false ∨ s.fld Pg.ACD Off.ACD_HB_CFG 19 16 = 0 → Does .twinHeartbeatSend s s) ∧
    (∀ b : EthBeat, s.inRun = true → beatValid s b = true →
      let epoch := beNat (((beatPayload b.frame).drop 12).take 4)
      (s.acd.pair ≠ .isolated →
        Does (.twinHeartbeat b) s (onAcd s fun a => { a with ethPath := true, twinEpoch := epoch })) ∧
      (s.acd.pair = .isolated → Reaches (.twinHeartbeat b) s fun t =>
        t.acd.pair = .split ∧ t.acd.ethPath = true ∧ t.acd.twinEpoch = epoch ∧ t.bit Pg.ACD Off.IRQ_FLAG 3 = true)) ∧
    (∀ b : EthBeat, s.inRun = false ∨ beatValid s b = false → Does (.twinHeartbeat b) s s) ∧
    (s.acd.ethPath = true → s.pwr.state ≠ .harvest →
      (s.acd.pair ≠ .split → Does .ethPathDown s (onAcd s fun a => { a with ethPath := false })) ∧
      (s.acd.pair = .split → Reaches .ethPathDown s fun t =>
        t.acd.pair = .isolated ∧ t.acd.ethPath = false ∧ t.bit Pg.ACD Off.IRQ_FLAG 4 = true)) ∧
    (s.acd.ethPath = false ∨ s.pwr.state = .harvest → Does .ethPathDown s s) ∧
    (s.inRun = true → s.acd.pair = .joining →
      (s.acd.helloOk = true ∨ s.acd.rankConflict = true →
        Does .joinWaitExpire s (onAcd s fun a => { a with joinTimer := false })) ∧
      (s.acd.helloOk = false → s.acd.rankConflict = false → Reaches .joinWaitExpire s fun t =>
        t.acd.pair = (if s.acd.ethPath then Pair.split else Pair.isolated) ∧
        t.acd.epoch = 2 * (max s.acd.epoch s.acd.twinEpoch / 2) + 2 + (1 - s.rank))) ∧
    (s.inRun = false ∨ s.acd.pair ≠ .joining → Does .joinWaitExpire s s) ∧
    (∀ n, s.mirrorPolicy n = 2 → lagReached s n = true →
      Does (.lagHigh n) s (onAcd s fun a => { a with lagging := setAdd a.lagging n })) ∧
    (∀ n, s.mirrorPolicy n ≠ 2 ∨ lagReached s n = false → Does (.lagHigh n) s s) ∧
    ∀ r w, Served s r Pg.ACD Off.ACD_ACD_CMD w →
      (w.bit 8 = true → w.bit 16 = false → Reaches (.adopt r w) s fun t => t.acd.adopt = some (w.bit 9)) ∧
      (w.bit 12 = true → Reaches (.takeover r w) s fun t => t.acd.takenOver = true) ∧
      (w.bit 16 = true → Reaches (.forget r w) s fun t => t.acd.partner = 0 ∧
        t.acd.pair = if s.acd.pair = .foreign ∧ 4 ≤ s.acd.train then .foreign else .alone)

/-! ## The sensor hub and its buses (chapters 13, 14) -/

/-- R365, R367 to R369, Tables 13.2, 13.3 and 14.2: a periodic task that falls due starts, is an overrun while it is due or
running, or is skipped on a rail that is down; each kind of step ends with the result, or the failure, that the table gives it,
or waits for its bus, and an I2C step leaves its exchange on the bus; a step that ends well goes on to its target or the next,
and one that fails ends its run with a record. Readings: log 79, 80, 83, 137. -/
def Obligations.PollSteps : Prop :=
  ∀ s : State,
    (∀ t, taskDue s t = false → Does (.taskDue t) s s) ∧
    (∀ t, taskDue s t = true → let u := onHub s fun h => { h with taskLast := storeInsert h.taskLast t h.tick }
      (railDown s (taskRail s t) = true → Does (.taskDue t) s (bump u Pg.GPIO 0x058)) ∧
      (railDown s (taskRail s t) = false → (∃ d, d ∈ s.hub.due ∧ d.task = t) ∨ (∃ r, s.hub.run = some r ∧ r.task = t) →
        Does (.taskDue t) s (raise (bump u Pg.PSQ 0x058) Pg.PSQ 2)) ∧
      (railDown s (taskRail s t) = false → s.hub.due = [] → s.hub.run = none → Reaches (.taskDue t) s fun u =>
        (∃ r, u.hub.run = some r ∧ r.task = t ∧ r.step = (s.taskA t).fld 6 0 ∧ r.wait = .none ∧ r.count = 0 ∧
          r.w0 = s.reg Pg.PSQ (Off.PSQ_STEP_W0 r.step) ∧ r.w1 = s.reg Pg.PSQ (Off.PSQ_STEP_W1 r.step)) ∧
        u.ctr Pg.PSQ 0x040 = min ctrMax (s.ctr Pg.PSQ 0x040 + 1))) ∧
    (∀ r, atStep s 0 = some r → Does .nop s (endStep s r none)) ∧
    (∀ r, atStep s 9 = some r → Does .wait s (endStep s r none)) ∧
    (∀ r, atStep s 8 = some r → Does .gpiRd s (endResult s r (s.bus.gpiIn &&& r.w1))) ∧
    (∀ r, atStep s 11 = some r →
      (∀ v, extractField s.hub.readBuf r.w1 = some v → Does .field_ s (endResult s r v)) ∧
      (extractField s.hub.readBuf r.w1 = none → Does .field_ s (failNow s r 8))) ∧
    (∀ r, atStep s 10 = some r →
      let v := s.reg Pg.PSQ Off.PSQ_RESULT
      let imm : Word := BitVec.signExtend 32 (BitVec.ofNat 16 (r.w1.fld 15 0))
      let target := some (r.w1.fld 26 20)
      (∀ cond, r.w1.fld 18 16 = cond →
        (cond = 0 → Does .branch s (endStep s r (if v = imm then target else none))) ∧
        (cond = 1 → Does .branch s (endStep s r (if v ≠ imm then target else none))) ∧
        (cond = 2 → Does .branch s (endStep s r (if v.signed < imm.signed then target else none))) ∧
        (cond = 3 → Does .branch s (endStep s r (if imm.signed ≤ v.signed then target else none))) ∧
        (cond = 4 → Does .branch s (endStep s r (if v &&& imm ≠ 0 then target else none))) ∧
        (cond = 5 → Does .branch s (endStep s r (if v &&& imm = 0 then target else none))) ∧
        (cond = 6 → Does .branch s (endStep s r target)) ∧
        (cond = 7 → ∃ n, n ∈ [target, none] ∧ Does .branch s (endStep { s with freeCtr := s.freeCtr + 1 } r n)))) ∧
    (∀ k c, (k, c) ∈ [(1, Instr.i2cWr), (2, Instr.i2cRd), (3, Instr.i2cRegrd)] → ∀ r, atStep s k = some r →
      let b := stepUnit r
      let p := Pg.I2C b
      let idle (u : State) (ops : List BusOp) : State :=
        onI2c u b fun x => { x with scl := true, sda := true, busBusy := false, wire := ops }
      let ended := idle (bumpBy (bump s p 0x040) p 0x048 (stepLen r)) (i2cOps s r)
      (∀ out, s.en p = false → Does (c out) s (failNow s r 7)) ∧
      (∀ out, s.en p = true → i2cUsable s b = false → Does (c out) s (failNow s r 4)) ∧
      (i2cUsable s b = true →
        (∀ bytes, k = 1 → Does (c (.ok bytes)) s (endResult ended r 0)) ∧
        (∀ bytes, k ≠ 1 → let u := onHub ended fun h => { h with readBuf := bytes.take (stepLen r) }
          (∀ v, extractField (bytes.take (stepLen r)) r.w1 = some v → Does (c (.ok bytes)) s (endResult u r v)) ∧
          (extractField (bytes.take (stepLen r)) r.w1 = none → Does (c (.ok bytes)) s (failNow u r 8))) ∧
        (∀ a, Does (c (.nak a)) s (failNow
          (idle (setFlag (bump (bump s p 0x040) p 0x050) p 7) (upToNak a (i2cOps s r))) r 1)) ∧
        Does (c .stretch) s (failNow (setFlag (bump (bump s p 0x040) p 0x060) p 1) r 3) ∧
        (r.tries < 3 → Does (c .arbLost) s (waitStep (onI2c (raise (bump s p 0x058) p 1) b fun x =>
          { x with busBusy := true }) { r with tries := r.tries + 1 } .arb)) ∧
        (3 ≤ r.tries → Does (c .arbLost) s (failNow (onI2c (setFlag (bump s p 0x058) p 0) b fun x =>
          { x with busBusy := true }) r 2)))) ∧
    (∀ k c, (k, c) ∈ [(4, Instr.uartTx), (5, Instr.uartRx), (6, Instr.uartMatch)] → ∀ r, atStep s k = some r →
      (s.en (Pg.UART (stepUnit r)) = false → Does c s (failNow s r 7)) ∧
      (s.en (Pg.UART (stepUnit r)) = true → uartUsable s (stepUnit r) = false → Does c s (failNow s r 4))) ∧
    (∀ r, atStep s 4 = some r → uartUsable s (stepUnit r) = true →
      Does .uartTx s (endResult (bumpBy s (Pg.UART (stepUnit r)) 0x048 (stepLen r)) r 0)) ∧
    (∀ r, atStep s 5 = some r → uartUsable s (stepUnit r) = true →
      (takeUart s (stepUnit r) (stepLen r) = none → Does .uartRx s (waitStep s r .uart)) ∧
      ∀ bs u, takeUart s (stepUnit r) (stepLen r) = some (bs, u) →
        let u := onHub u fun h => { h with readBuf := bs.take (stepLen r) }
        (∀ v, extractField (bs.take (stepLen r)) r.w1 = some v → Does .uartRx s (endResult u r v)) ∧
        (extractField (bs.take (stepLen r)) r.w1 = none → Does .uartRx s (failNow u r 8))) ∧
    (∀ r, atStep s 6 = some r → uartUsable s (stepUnit r) = true →
      (takeUart s (stepUnit r) (stepLen r) = none → Does .uartMatch s (waitStep s r .uart)) ∧
      ∀ bs u, takeUart s (stepUnit r) (stepLen r) = some (bs, u) →
        Does .uartMatch s (endResult u r
          (if bs.take (stepLen r) = psqBytes u (r.w1.fld 8 0) (stepLen r) then 1 else 0))) ∧
    (∀ r, atStep s 7 = some r →
      (s.en Pg.ADC = false → Does .adc s (failNow s r 7)) ∧
      (s.en Pg.ADC = true → Does .adc s (waitStep
        { s with bus := { s.bus with adcQueue := s.bus.adcQueue ++ [.psq (stepUnit r % 8)] } } r .adc))) ∧
    (∀ r, s.hub.run = some r →
      (r.wait = .uart → Does .uartStepTimeout s (failNow s r 5)) ∧ (r.wait ≠ .uart → Does .uartStepTimeout s s)) ∧
    (∀ r n, r.w0.bit 21 = false → r.ending = false → r.count < 255 →
      ∃ d, (endStep s r (some n)).hub.run = some d ∧ d.task = r.task ∧ d.step = n ∧ d.count = r.count + 1 ∧
        d.w0 = s.reg Pg.PSQ (Off.PSQ_STEP_W0 n) ∧ d.w1 = s.reg Pg.PSQ (Off.PSQ_STEP_W1 n) ∧ d.wait = .none) ∧
    (∀ r, r.w0.bit 31 = false → endStep s r none = endStep s r (some ((r.step + 1) % 128))) ∧
    ∀ r code, let u := failNow s r code
      u.reg Pg.PSQ Off.PSQ_LAST_FAIL = (Word.place 6 0 r.step ||| Word.place 11 8 r.task ||| Word.place 19 16 code) ∧
      u.bit Pg.PSQ Off.IRQ_FLAG 0 = true ∧ u.ctr Pg.PSQ 0x050 = min ctrMax (s.ctr Pg.PSQ 0x050 + 1)

/-- R362 to R364, R383, R384: a read of TICK_LO latches the tick's high word; ALM_CMP_HI is staged and ALM_CMP_LO loads the
comparator, whose alarm fires at once where it is due by then; an alarm that is due sets its flag, ends or moves on by its period,
and leaves its record; WAKE_IN latches a wake in PARK; a host wake pulse ends, by itself in MODE 1 or by RELEASE. Readings: log
66, 137. -/
def Obligations.AlarmsAndWakes : Prop :=
  ∀ s : State,
    (∀ r, ServedRead s r Pg.AON Off.AON_TICK_LO → Does (.tickLo r) s
      (served (setShadow s r.path Pg.AON Off.AON_TICK_HI (BitVec.ofNat 32 (s.hub.tick / 2 ^ 32))) r (BitVec.ofNat 32 s.hub.tick))) ∧
    (∀ r a w, a < 4 → Served s r Pg.AON (Off.AON_ALM_CMP_HI a) w → Does (.almCmpHi r a w) s
      (served (onHub (setReg s Pg.AON (Off.AON_ALM_CMP_HI a) w) fun h =>
        { h with cmpStaged := storePut h.cmpStaged a 0 w }) r 0)) ∧
    (∀ r a w, a < 4 → Served s r Pg.AON (Off.AON_ALM_CMP_LO a) w →
      let u := onHub (setReg s Pg.AON (Off.AON_ALM_CMP_LO a) w) fun h =>
        { h with cmp := storePut h.cmp a 0 ((storeLook h.cmpStaged a 0).toNat * 2 ^ 32 + w.toNat) }
      (alarmDue u a = false → Does (.almCmpLo r a w) s (served u r 0)) ∧
      (alarmDue u a = true → Does (.almCmpLo r a w) s (served (doAlarm a u) r 0))) ∧
    (∀ a, alarmDue s a = decide (a < 4 ∧ s.bit Pg.AON (Off.AON_ALM_CTRL a) 0 = true ∧ storeLook s.hub.cmp a 0 ≤ s.hub.tick)) ∧
    (∀ a, let ctl := s.reg Pg.AON (Off.AON_ALM_CTRL a)
      (alarmDue s a = false → Does (.alarm a) s s) ∧
      (alarmDue s a = true → Reaches (.alarm a) s fun t =>
        t.bit Pg.AON Off.IRQ_FLAG a = true ∧
        (ctl.fld 31 8 = 0 → t.bit Pg.AON (Off.AON_ALM_CTRL a) 0 = false ∧ t.hub.cmp = s.hub.cmp) ∧
        (ctl.fld 31 8 ≠ 0 → t.reg Pg.AON (Off.AON_ALM_CTRL a) = ctl ∧
          storeLook t.hub.cmp a 0 = (storeLook s.hub.cmp a 0 + ctl.fld 31 8 * 50000) % 2 ^ 64) ∧
        (ctl.bit 3 = true → ∃ d, t.hub.sillage.getLast? = some d ∧ d.type = 7 ∧ d.tick = s.hub.tick ∧
          d.data = [BitVec.ofNat 8 a]))) ∧
    (s.pwr.state = .park → s.pwr.wait = .none → s.bit Pg.AON Off.AON_WAKE_CFG 3 = true → Reaches .wakeIn s fun t =>
      t.pwr.wakeLatch = s.pwr.wakeLatch ||| 8 ∧
      t.reg Pg.AON Off.AON_WAKE_SRC = (s.pwr.wakeLatch ||| 8).setWidth 32 ∧
      (s.pwr.wakeLatch = 0 → t.ctr Pg.AON 0x040 = min ctrMax (s.ctr Pg.AON 0x040 + 1)) ∧
      ∃ d, t.hub.sillage.getLast? = some d ∧ d.type = 1 ∧ d.tick = s.hub.tick) ∧
    (s.bit Pg.AON Off.AON_WAKE_CFG 3 = false → Does .wakeIn s s) ∧
    (s.pwr.state = .run → s.pwr.settle = none → Does .wakeIn s s) ∧
    (s.bit Pg.AON Off.AON_HOST_WAKE_CFG 2 = true → Does .hostWakePulseEnd s (onHub s fun h => { h with wakeHost := false })) ∧
    (s.bit Pg.AON Off.AON_HOST_WAKE_CFG 2 = false → Does .hostWakePulseEnd s s) ∧
    ∀ r w, Served s r Pg.AON Off.AON_HOST_WAKE_CMD w → w.bit 0 = true →
      Does (.hostWakeRelease r w) s (served (onHub s fun h => { h with wakeHost := false }) r 0)

/-- R371 to R374, R376 to R382, R385, R386, R413: a debounced edge changes its input, is counted and sets its flag where it is
selected; a SEQ whose gap expires starts over, and a COUNT forgets the events that its window has left behind; a batch closes at
its time; the mover commits what it can place, with its counters, or notes a retry that the end of 100 ms lets go; an interval
close latches what its groups had counted before the tick, once in a tick, and queues its record; a sillage chunk that is due
goes to TC0. Readings: log 67, 92, 93, 137. -/
def Obligations.HubRecords : Prop :=
  ∀ s : State,
    (∀ n up, n < 32 → s.bus.gpiIn.bit n ≠ up → Reaches (.debouncedEdge [(n, up)]) s fun t =>
      t.bus.gpiIn = s.bus.gpiIn.setBit n up ∧
      (s.bit Pg.GPIO (if up then Off.GPIO_EDGE_RISE else Off.GPIO_EDGE_FALL) n = true →
        t.bit Pg.GPIO Off.IRQ_FLAG n = true ∧ t.ctr Pg.GPIO 0x040 = min ctrMax (s.ctr Pg.GPIO 0x040 + 1))) ∧
    (∀ n up, s.bus.gpiIn.bit n = up → Reaches (.debouncedEdge [(n, up)]) s fun t => t.bus = s.bus ∧ t.hub = s.hub) ∧
    (∀ r, r < 32 → s.en Pg.REC = true →
      ((s.recCfg r).fld 2 0 = 4 → gapPast s r = true →
        Does (.seqTimeout r) s (bump (setRecog s r { s.recog r with progress := 0 }) Pg.REC 0x050)) ∧
      ((s.recCfg r).fld 2 0 = 4 → gapPast s r = false → Does (.seqTimeout r) s s) ∧
      ((s.recCfg r).fld 2 0 = 5 → Does (.seqTimeout r) s (setRecog s r { s.recog r with
        counted := (s.recog r).counted.filter fun t =>
          decide (s.hub.tick ≤ t + (s.reg Pg.REC (Off.REC_REC_CFG2 r)).toNat * 50000) }))) ∧
    (∀ r, 32 ≤ r ∨ s.en Pg.REC = false ∨ (s.recCfg r).fld 2 0 ∉ [4, 5] → Does (.seqTimeout r) s s) ∧
    (∀ m o, (s.batchesOf m).open? = some o → batchDue s m = true → Does (.batchClose m) s (bump (setBatches s m
      { s.batchesOf m with open? := none, closed := (s.batchesOf m).closed ++ [{ o with cfgChanged := false }] }) Pg.BAT 0x048)) ∧
    (∀ m, batchDue s m = false → Does (.batchClose m) s s) ∧
    (∀ r, moverOn s = true → Does (.batchMove r) s (moveOne s r)) ∧
    (∀ r, moverOn s = false → Does (.batchMove r) s s) ∧
    (∀ m n b l t un st u, (s.batchesOf m).closed = b :: l → batchTime s b = some (t, un) →
      internalPut s n (moverPrefix s ++ [0x2F] ++ digits 2 m ++ [0x2F] ++ ftDigits t.1) (batchBytes m b t un) = (st, u) →
      (st = St.OK ∨ st = St.EXISTS →
        moveBatch s m n .good = bump (popBatch u m) Pg.BAT 0x050 ∧ ((popBatch u m).batchesOf m).closed = l) ∧
      (st ≠ St.OK → st ≠ St.EXISTS → ((moveBatch s m n .good).batchesOf m).retry = true ∧
        ((moveBatch s m n .good).batchesOf m).closed = b :: l)) ∧
    Reaches .moveRetry s (fun t => (∀ v, v ∈ t.hub.intervals → v.retry = false) ∧
      (∀ e, e ∈ t.hub.batches → e.2.retry = false) ∧ (∀ e, e ∈ t.aqe.held → e.2.retry = false) ∧ t.hub.sillRetry = false ∧
      t.hub.batches.map (fun e => (e.1, e.2.closed)) = s.hub.batches.map (fun e => (e.1, e.2.closed))) ∧
    (∀ d l st u, s.inRun = true → chunkDue s = true → s.hub.sillRetry = false → s.hub.sillage = d :: l →
      internalPut s 0 ([0xFF, 0x53, 0x4C, 0x47] ++ beBytes 4 s.hub.bootsAfterOff ++ beBytes 8 d.tick)
        ((s.hub.sillage.take 256).flatMap sillBytes) = (st, u) →
      (st = St.OK ∨ st = St.EXISTS → Does (.sillageMove .good) s (onHub u fun h =>
        { h with sillage := h.sillage.drop (s.hub.sillage.take 256).length })) ∧
      (st ≠ St.OK → st ≠ St.EXISTS → Does (.sillageMove .good) s (raise (bump
        (onHub u fun h => { h with sillRetry := true }) Pg.BAT 0x068) Pg.BAT 8))) ∧
    (∀ r, s.inRun = false ∨ chunkDue s = false ∨ s.hub.sillRetry = true → Does (.sillageMove r) s s) ∧
    (∀ c l, s.tat.closes = c :: l → Reaches .intervalClose s fun t =>
      t.tat.closes = l ∧
      (∀ g, g < 32 → c.mask.bit g = true → let u := tickCounts s
        let n := u.tickCount g
        t.reg Pg.REC (groupOff g 2) = (if u.hub.latched.contains g then 0 else n.board) ∧
        t.reg Pg.REC (groupOff g 3) = (if u.hub.latched.contains g then 0 else n.alight) ∧
        t.reg Pg.REC (groupOff g 0) = BitVec.ofNat 32 n.boards ∧ t.reg Pg.REC (groupOff g 1) = BitVec.ofNat 32 n.alights ∧
        (s.hub.countTick ≠ s.hub.tick → u.hub.latched = [] ∧ n.board = s.reg Pg.REC (groupOff g 0) ∧
          n.alight = s.reg Pg.REC (groupOff g 1) ∧ n.boards = 0 ∧ n.alights = 0)) ∧
      (∀ g k, g < 32 → k < 4 → c.mask.bit g = false → t.reg Pg.REC (groupOff g k) = s.reg Pg.REC (groupOff g k)) ∧
      t.reg Pg.REC Off.REC_LATCH_TICK_LO = BitVec.ofNat 32 s.hub.tick ∧
      t.reg Pg.REC Off.REC_LATCH_TICK_HI = BitVec.ofNat 32 (s.hub.tick / 2 ^ 32) ∧
      t.ctr Pg.REC 0x058 = min ctrMax (s.ctr Pg.REC 0x058 + 1) ∧
      (sumBy ivlSize s.hub.intervals + 416 ≤ 32768 → ∃ v, t.hub.intervals = s.hub.intervals ++ [v] ∧ v.mask = c.mask ∧
        v.ns = c.firedNs ∧ v.tick = s.hub.tick ∧ v.occupancy = s.reg Pg.REC Off.REC_OCCUPANCY ∧ v.tenant = c.tenant ∧
        v.late = c.late)) ∧
    (s.tat.closes = [] → Does .intervalClose s s)

/-- R397, R399 to R401, R415: an alert is noted and read, its address and flag kept, or the read's failure; a bus with a line
held low is stuck, and its cure, where it has one, takes the rail off, on again, and after the settling time ends it, starts it
again or gives it up; a retry after lost arbitration goes on; CLR_STUCK and RAIL_CTRL end what they end. Readings: log 82. -/
def Obligations.I2cAlertsAndCure : Prop :=
  ∀ s : State,
    (∀ b, b < 2 →
      Does (.alert b) s (onI2c s b fun x => { x with alertLine := true }) ∧
      Does (.alertRetry b) s (onI2c s b fun x => { x with alertWait := false }) ∧
      (∀ answer still, alertReadable s b = false → Does (.alertRead b answer still) s s) ∧
      (alertReadable s b = true → ∀ still, let p := Pg.I2C b
        let tried (x : I2cState) : I2cState := { x with alertLine := still, wire := [.start, .addr 0x0C true, .read 1, .stop] }
        (∀ k, Does (.alertRead b (.nak k) still) s (onI2c (bump s p 0x040) b fun x =>
          { x with alertWait := true, alertLine := still, wire := [.start, .addr 0x0C true, .stop] })) ∧
        Does (.alertRead b .arbLost still) s (onI2c (raise (bump s p 0x058) p 1) b tried) ∧
        Does (.alertRead b .stretch still) s (onI2c (raise (bump (bump s p 0x040) p 0x060) p 2) b tried)) ∧
      (∀ bytes still, alertReadable s b = true → Reaches (.alertRead b (.ok bytes) still) s fun t =>
        (t.i2c b).lastAra = (bytes.headD 0xFF).toNat / 2 ∧ (t.i2c b).alertLine = still ∧
        t.bit (Pg.I2C b) Off.IRQ_FLAG 3 = true ∧
        t.ctr (Pg.I2C b) 0x070 = min ctrMax (s.ctr (Pg.I2C b) 0x070 + 1) ∧
        (15 ≤ ((s.i2c b).araTicks.filter fun x => decide (s.hub.tick ≤ x + 5000000)).length →
          t.bit (Pg.I2C b) Off.I2C_I2C_CFG 4 = false ∧ t.bit (Pg.I2C b) Off.IRQ_FLAG 4 = true))) ∧
    (∀ r, s.hub.run = some r →
      (r.wait = .arb → Does .arbRetry s (waitStep (onI2c s (stepUnit r) fun x => { x with busBusy := false }) r .none)) ∧
      (r.wait ≠ .arb → Does .arbRetry s s)) ∧
    (∀ b scl sda, b < 2 → s.en (Pg.I2C b) = true → (s.i2c b).stuck = false → scl = false ∨ sda = false →
      Reaches (.busStuck b scl sda) s fun t => (t.i2c b).stuck = true ∧ t.bit (Pg.I2C b) Off.IRQ_FLAG 2 = true ∧
        t.ctr (Pg.I2C b) 0x068 = min ctrMax (s.ctr (Pg.I2C b) 0x068 + 1) ∧
        ∀ n, i2cRail s b = n + 1 → n < 2 → s.bit (Pg.I2C b) Off.I2C_I2C_CFG 5 = true → (s.rail n).curing = false →
          (t.rail n).curing = true ∧ (t.rail n).down = true ∧ t.bit Pg.GPIO Off.GPIO_RAIL_CTRL (4 * n) = false ∧
          t.bit Pg.GPIO Off.GPIO_RAIL_CTRL (4 * n + 1) = true) ∧
    (∀ b scl sda, 2 ≤ b ∨ s.en (Pg.I2C b) = false ∨ (s.i2c b).stuck = true ∨ (scl = true ∧ sda = true) →
      Does (.busStuck b scl sda) s s) ∧
    (∀ n, n < 2 → (s.rail n).curing = true →
      ((s.rail n).settling = false → Does (.pwrCycleEnd n) s
        (onRail (setBitOf s Pg.GPIO Off.GPIO_RAIL_CTRL (4 * n) true) n fun x => { x with settling := true })) ∧
      ∀ lines : BitVec 4, (s.rail n).settling = true →
        (((stuckOn s n).all fun b => lines.getLsbD (2 * b) && lines.getLsbD (2 * b + 1)) = true →
          Reaches (.railSettleEnd n lines) s fun t => (t.rail n).curing = false ∧ (t.rail n).down = false ∧
            ∀ b, b ∈ stuckOn s n → (t.i2c b).stuck = false ∧ t.bit (Pg.I2C b) Off.IRQ_FLAG 5 = true) ∧
        (((stuckOn s n).all fun b => lines.getLsbD (2 * b) && lines.getLsbD (2 * b + 1)) = false →
          (((stuckOn s n).any fun b => decide ((s.i2c b).cureCount < s.fld (Pg.I2C b) Off.I2C_I2C_CFG 27 24)) = true →
            Reaches (.railSettleEnd n lines) s fun t => (t.rail n).curing = true ∧ (t.rail n).down = true ∧
              (t.rail n).cures = (s.rail n).cures + 1) ∧
          (((stuckOn s n).any fun b => decide ((s.i2c b).cureCount < s.fld (Pg.I2C b) Off.I2C_I2C_CFG 27 24)) = false →
            Reaches (.railSettleEnd n lines) s fun t => (t.rail n).curing = false ∧
              ∀ b, b ∈ stuckOn s n → (t.i2c b).stuck = true ∧ t.bit (Pg.I2C b) Off.IRQ_FLAG 6 = true))) ∧
    (∀ n lines, 2 ≤ n ∨ (s.rail n).curing = false → Does (.pwrCycleEnd n) s s ∧ Does (.railSettleEnd n lines) s s) ∧
    (∀ r b w, b < 2 → Served s r (Pg.I2C b) Off.I2C_I2C_CMD w → w.bit 0 = true →
      Does (.clrStuck r b w) s (served (onI2c s b fun x => { x with stuck := false, cureCount := 0 }) r 0)) ∧
    ∀ r w, Served s r Pg.GPIO Off.GPIO_RAIL_CTRL w → Reaches (.railCtrl r w) s fun t =>
      t.reg Pg.GPIO Off.GPIO_RAIL_CTRL = (stored s .gpio Pg.GPIO Off.GPIO_RAIL_CTRL w).reg Pg.GPIO Off.GPIO_RAIL_CTRL ∧
      (t.rail 0).curing = false ∧ (t.rail 1).curing = false ∧ lastAnswer t r.path = {}

/-- R404 to R408, R411, R412, R414: a start bit begins a character where its majority is low; a good character without framing
enters the FIFO, and one in error is counted and flagged; the end of a frame's idle time discards it; a flush empties the FIFO; a
sequence that is due queues its conversions, or is skipped while it runs; a conversion's code goes to its result, its step or its
sequence; a pulse ends. Readings: log 80, 81, 83, 137. -/
def Obligations.UartAdcGpio : Prop :=
  ∀ s : State,
    (∀ u samples, u < 4 → uartUsable s u = true → (s.uart u).inChar = false →
      Does (.startBit u samples) s (onUart s u fun x => { x with inChar := !majority samples, needHigh := false })) ∧
    (∀ u samples, 4 ≤ u ∨ uartUsable s u = false ∨ (s.uart u).inChar = true → Does (.startBit u samples) s s) ∧
    (∀ u c, 4 ≤ u ∨ uartUsable s u = false ∨ (s.uart u).inChar = false → Does (.characterReceived u c) s s) ∧
    (∀ u c, u < 4 → uartUsable s u = true → (s.uart u).inChar = true →
      let p := Pg.UART u
      let cfg := s.reg p Off.UART_UART_CFG
      let bits := charBits cfg c
      let odd : Bool := decide ((bits.filter id).length % 2 = 1)
      let parityOk := cfg.fld 2 1 = 0 ∨ odd = decide (cfg.fld 2 1 = 2)
      (c.stop = true → parityOk → (s.uart u).de = false ∨ cfg.bit 10 = true → uartFraming s u = 0 →
        fifoLevel (s.uart u) < 256 → s.hub.run = none →
        Does (.characterReceived u c) s (onUart (onUart (bump s p 0x040) u fun x =>
          { x with inChar := false, needHigh := false }) u fun x => { x with fifo := x.fifo ++ [BitVec.ofNat 8
            (sumBy (fun i => b2n (bits.getD i false) (2 ^ i)) (List.range (if cfg.bit 0 then 8 else 7)))] })) ∧
      (c.stop = true → parityOk → (s.uart u).de = true → cfg.bit 10 = false →
        Does (.characterReceived u c) s (onUart (bump s p 0x040) u fun x => { x with inChar := false, needHigh := false })) ∧
      (c.stop = false → Reaches (.characterReceived u c) s fun t =>
        t.bit p Off.IRQ_FLAG 0 = true ∧ t.ctr p 0x050 = min ctrMax (s.ctr p 0x050 + 1) ∧
        (t.uart u).fifo = (s.uart u).fifo ∧ (t.uart u).inFrame = false ∧ (t.uart u).inChar = cfg.bit 4 ∧
        (t.uart u).needHigh = !cfg.bit 4 ∧
        (bits.all not = true → t.bit p Off.IRQ_FLAG 2 = true ∧ t.ctr p 0x078 = min ctrMax (s.ctr p 0x078 + 1))) ∧
      (¬ parityOk → Reaches (.characterReceived u c) s fun t =>
        t.bit p Off.IRQ_FLAG 1 = true ∧ t.ctr p 0x058 = min ctrMax (s.ctr p 0x058 + 1) ∧
        (t.uart u).fifo = (s.uart u).fifo)) ∧
    (∀ u, ((s.uart u).inFrame = true → Does (.frameIdle u) s (raise (bump (onUart s u fun x =>
        { x with partFrame := [], inFrame := false, need := none }) (Pg.UART u) 0x070) (Pg.UART u) 16)) ∧
      ((s.uart u).inFrame = false → Does (.frameIdle u) s s)) ∧
    (∀ r u w, u < 4 → Served s r (Pg.UART u) Off.UART_UART_CMD w → w.bit 0 = true →
      Does (.rxFlush r u w) s (served (emptyFifo s u) r 0)) ∧
    (∀ q, seqDue s q = true →
      let u : State := { s with bus := { s.bus with
        seqNext := storeModify s.bus.seqNext q 0 (· + (seqCfg s q).fld 31 12 * 50) } }
      (s.en Pg.ADC = false → Does (.sequenceStart q) s u) ∧
      (s.en Pg.ADC = true → s.bus.seqActive.contains q = true →
        Does (.sequenceStart q) s (raise (bump u Pg.ADC 0x050) Pg.ADC 16)) ∧
      (s.en Pg.ADC = true → s.bus.seqActive.contains q = false → Does (.sequenceStart q) s { u with bus := { u.bus with
        seqActive := setAdd s.bus.seqActive q
        adcQueue := s.bus.adcQueue ++ (List.range ((seqCfg s q).fld 6 4 + 1)).map fun i => AdcReq.seq q i } })) ∧
    (∀ q, seqDue s q = false → Does (.sequenceStart q) s s) ∧
    (∀ code, (s.bus.adcQueue = [] → Does (.conversion code) s s) ∧
      (∀ ch l, s.bus.adcQueue = .psq ch :: l →
        let u := adcResult { s with bus := { s.bus with adcQueue := l } } ch (min 4095 code)
        (∀ r, s.hub.run = some r →
          (r.wait = .adc → Does (.conversion code) s (endResult u r (BitVec.ofNat 32 (min 4095 code)))) ∧
          (r.wait ≠ .adc → Does (.conversion code) s u)) ∧
        (s.hub.run = none → Does (.conversion code) s u)) ∧
      ∀ i n l, s.bus.adcQueue = .seq i n :: l → let e := seqEntry s i n
        let u := adcResult { s with bus := { s.bus with adcQueue := l } } (e % 8) (min 4095 code)
        let v := if e < 32768 then u else sample u (e / 256 % 64) (BitVec.ofNat 32 (min 4095 code))
        ((∃ k, AdcReq.seq i k ∈ l) → Does (.conversion code) s v) ∧
        ((∀ k, AdcReq.seq i k ∉ l) → Does (.conversion code) s (raise (bump
          { v with bus := { v.bus with seqActive := setDel v.bus.seqActive i } } Pg.ADC 0x048) Pg.ADC
            (BitVec.ofNat 32 (2 ^ i))))) ∧
    ∀ k, Does (.gpoPulseEnd k) s { s with bus := { s.bus with gpoPulse := setDel s.bus.gpoPulse k } }

/-! ## The acquisition engine and the event fabric (chapters 15, 16) -/

/-- R422, R425 to R431, R440, R441: an arm, by AQE_CMD or from the table, starts a run in its first segment; a change
of a pin reaches the lanes that see it; a trigger, FORCE or the arm's timeout starts the waiting record; a record ends HELD, and
the run with it unless it re-arms; STOP ends the run; a HELD record is freed, or moved and its segment freed. Readings: log 56,
61, 93, 137. -/
def Obligations.AcquisitionRuns : Prop :=
  ∀ s : State,
    (∀ r w, Served s r Pg.AQE Off.AQE_AQE_CMD w → s.en Pg.AQE = true →
      (w.bit 0 = true → w.bit 4 = false → w.bit 5 = false →
        let p := profileOf s (w.fld 3 1)
        storeFind s.aqe.held p.firstSeg = none → p.trigSrc ≠ 4 → Reaches (.arm r w) s fun t =>
          t.aqe.prof = some p ∧ t.aqe.phase = .armed ∧ t.aqe.seg = p.firstSeg ∧ t.aqe.armTick = s.hub.tick + 1 ∧
          t.aqe.dead = 0xFFFFFFFF ∧ t.aqe.held = s.aqe.held) ∧
      (w.bit 0 = false → w.bit 4 = true → w.bit 5 = false → s.aqe.prof ≠ none → Reaches (.force r w) s fun t =>
        t.aqe.phase = .capture ∧ ∃ c, t.aqe.cur = some c ∧ c.cause = 5 ∧ c.forced = true ∧ c.trigTime = s.hub.tick * 32 ∧
          c.rseq = s.aqe.rseq) ∧
      (w.bit 0 = false → w.bit 4 = false → w.bit 5 = true → s.aqe.prof ≠ none → Reaches (.stop r w) s fun t =>
        t.aqe.phase = .idle ∧ t.aqe.prof = none ∧ t.bit Pg.AQE Off.IRQ_FLAG 2 = true ∧
        ∀ c, s.aqe.cur = some c → ∃ d, storeFind t.aqe.held c.segment = some d ∧ d.aborted = true ∧ d.rseq = c.rseq ∧
          d.endTick = s.hub.tick)) ∧
    (∀ p late l, s.tat.arms = (p, late) :: l →
      let u := { s with tat := { s.tat with arms := l } }
      (s.aqe.phase ≠ .idle → Does .aqeArm s (bump u Pg.AQE 0x068)) ∧
      (s.aqe.phase = .idle → s.en Pg.AQE = true → profileBad s (profileOf s p) = false →
        Does .aqeArm s (startRun u (profileOf s p) late)) ∧
      (s.aqe.phase = .idle → s.en Pg.AQE = false ∨ profileBad s (profileOf s p) = true → Does .aqeArm s u)) ∧
    (s.tat.arms = [] → Does .aqeArm s s) ∧
    (∀ c l, l ∈ lanesOf s c ↔ l.phase = (if s.clk.recal then 0 else c.phase % 32) ∧
      ((l.lane < 16 ∧ dchSrc s l.lane = c.pin ∧ l.level = xor c.level (dchInv s l.lane)) ∨
        ((l.lane = 16 ∨ l.lane = 17) ∧ c.pin = l.lane + 16 ∧ l.level = c.level))) ∧
    (∀ c l p, c.pin < 35 → l ∈ lanesOf s c → s.aqe.prof = some p → s.aqe.phase = .armed →
      isTrigger p l.lane l.level = true → s.aqe.armTick * 32 ≤ s.hub.tick * 32 + l.phase →
      Reaches (.taggedChange [c]) s fun t => t.aqe.levels.getLsbD l.lane = l.level ∧ ∃ d, t.aqe.cur = some d ∧
        d.cause = p.trigSrc ∧ d.trigTime = s.hub.tick * 32 + l.phase ∧ d.rseq = s.aqe.rseq ∧ d.trigCoarse = s.clk.recal) ∧
    (∀ c, c.pin < 35 → s.aqe.prof = none → s.aqe.cur = none → Reaches (.taggedChange [c]) s fun t =>
      (∀ n, n < 35 → t.aqe.pins.getLsbD n = if n = c.pin then c.level else s.aqe.pins.getLsbD n) ∧
      (∀ l, l ∈ lanesOf s c → t.aqe.levels.getLsbD l.lane = l.level) ∧
      (∀ n, n < 18 → (∀ l, l ∈ lanesOf s c → l.lane ≠ n) → t.aqe.levels.getLsbD n = s.aqe.levels.getLsbD n) ∧
      t.aqe.phase = s.aqe.phase ∧ t.aqe.held = s.aqe.held) ∧
    (∀ c : TagChange, 35 ≤ c.pin → Does (.taggedChange [c]) s s) ∧
    Does (.taggedChange []) s s ∧
    (s.aqe.prof = none → Does .armTimeout s s ∧ Does .recordEnd s s ∧ Does .rearm s s) ∧
    (∀ p, s.aqe.prof = some p →
      (s.aqe.phase = .armed → p.armTmoMs ≠ 0 → s.aqe.armTick + p.armTmoMs * 50000 ≤ s.hub.tick →
        Reaches .armTimeout s fun t => t.aqe.phase = .capture ∧
          ∃ c, t.aqe.cur = some c ∧ c.cause = 6 ∧ c.timeout = true ∧
            c.trigTime = (s.aqe.armTick + p.armTmoMs * 50000) * 32) ∧
      (s.aqe.phase ≠ .armed ∨ p.armTmoMs = 0 ∨ s.hub.tick < s.aqe.armTick + p.armTmoMs * 50000 → Does .armTimeout s s) ∧
      (∀ c, s.aqe.cur = some c → s.hub.tick < c.trigTime / 32 + p.postTicks → Does .recordEnd s s) ∧
      (∀ c, s.aqe.cur = some c → c.trigTime / 32 + p.postTicks ≤ s.hub.tick → Reaches .recordEnd s fun t =>
        t.aqe.cur = none ∧ t.bit Pg.AQE Off.IRQ_FLAG 1 = true ∧
        t.ctr Pg.AQE 0x040 = min ctrMax (s.ctr Pg.AQE 0x040 + 1) ∧
        (p.rearm = false → t.aqe.phase = .idle ∧ ∃ d, storeFind t.aqe.held c.segment = some d ∧ d.rseq = c.rseq ∧
          d.trigTime = c.trigTime ∧ d.endTick = c.trigTime / 32 + p.postTicks ∧ d.aborted = c.aborted)) ∧
      (s.aqe.cur = none → Does .recordEnd s s) ∧
      (s.aqe.phase = .rearm → p.trigSrc ≠ 4 → Reaches .rearm s fun t => t.aqe.phase = .armed ∧ t.aqe.seg = s.aqe.seg ∧
        t.aqe.armTick = min (max s.hub.tick s.aqe.dead) s.aqe.armTick) ∧
      (s.aqe.phase ≠ .rearm → Does .rearm s s)) ∧
    Does .trigOutPulseEnd s { s with aqe := { s.aqe with
      toutPulse := s.aqe.toutPulse.filter fun p => decide (s.hub.tick < p.2) } } ∧
    (∀ r w, Served s r Pg.AQE Off.AQE_SEG_CMD w → w.bit 0 = true → Does (.segCmdFree r w) s (served { s with aqe := { s.aqe with
      held := storeErase s.aqe.held (s.fld Pg.AQE Off.AQE_SEG_SEL 11 0) } } r 0)) ∧
    (∀ n seg rec st u, moverTenant s = some n → s.inRun = true → s.bit Pg.AQE Off.AQE_AQE_CFG 8 = true → s.en Pg.AQE = true →
      (s.aqe.held.filter fun e => e.2.move && !e.2.retry) = [(seg, rec)] →
      internalPut s n (moverPrefix s ++ aqePart ++ digits 10 s.hub.bootsAfterOff ++ [0x2F] ++ digits 20 (rec.trigTime / 32))
        (recordBytes rec) = (st, u) →
      (st = St.OK ∨ st = St.EXISTS → Does (.recordMove .good 0) s
        (bump { u with aqe := { u.aqe with held := storeErase u.aqe.held seg } } Pg.AQE 0x070)) ∧
      (st ≠ St.OK → st ≠ St.EXISTS → Does (.recordMove .good 0) s (raise (bump { u with aqe := { u.aqe with
        held := storeInsert u.aqe.held seg { rec with retry := true } } } Pg.AQE 0x080) Pg.AQE 16))) ∧
    (moverTenant s = none ∨ s.inRun = false ∨ s.bit Pg.AQE Off.AQE_AQE_CFG 8 = false ∨ s.en Pg.AQE = false ∨
      (s.aqe.held.filter fun e => e.2.move && !e.2.retry) = [] → ∀ r word, Does (.recordMove r word) s s)

/-- R446 to R448, R453 to R457, R461: CH_CFG takes its fields when served; a fire forms one event with an offer for
each consumer, due in its taking cycle, or is gated, merged into the event of its cycle, or counted on a channel that
is off; an offer is delivered in that cycle to a consumer that is not busy, the lowest channel's alone, and the others
are ignored; a read of a capture latches it and clears VALID. Readings: log 55, 137. -/
def Obligations.EventFabric : Prop :=
  ∀ s : State,
    (∀ r n w, n < 48 → Served s r Pg.EVF (Off.EVF_CH_CFG n) w →
      Does (.chCfg r n w) s (served (stored s .evf Pg.EVF (Off.EVF_CH_CFG n) w) r 0)) ∧
    (∀ r n w, n < 48 → Served s r Pg.EVF (Off.EVF_CH_FIRE n) w → w.bit 0 = true →
      let u := bump s Pg.EVF 0x060
      let cons := chConsumers s n
      (s.chEn n = false → Does (.fire r n w) s (served (bump u Pg.EVF 0x070) r 0)) ∧
      (chRuns s n = true → chFormed s n = false → gatePasses s n = true → Reaches (.fire r n w) s fun t =>
        t.evf.offers = s.evf.offers ++ cons.map (fun c =>
          { ch := n, consumer := c, aonHome := s.chAon n, due := takingCycle s n c }) ∧
        t.ctr Pg.EVF 0x040 = min ctrMax (s.ctr Pg.EVF 0x040 + 1) ∧
        t.ctr Pg.EVF (chCtr n 0) = min ctrMax (s.ctr Pg.EVF (chCtr n 0) + cons.length)) ∧
      (chRuns s n = true → chFormed s n = false → gatePasses s n = false → Reaches (.fire r n w) s fun t =>
        t.evf.offers = s.evf.offers ∧ t.ctr Pg.EVF 0x050 = min ctrMax (s.ctr Pg.EVF 0x050 + cons.length)) ∧
      (chRuns s n = true → chFormed s n = true → Does (.fire r n w) s (served (bump u Pg.EVF 0x058) r 0))) ∧
    (∀ n, chFormed s n = true ↔ storeFind s.evf.formed n = some (if s.chAon n = true then s.hub.tick else cycleNow s)) ∧
    (∀ c chs ch l u, takeOffers s c chs = (ch :: l, u) →
      (consBusy u c = false → Does (.offerTaken c chs) s (l.foldl ignoreOffer (consActs (deliverOffer u ch) c ch))) ∧
      (consBusy u c = true → Does (.offerTaken c chs) s ((ch :: l).foldl (fun t x => consRefuses (ignoreOffer t x) c) u)) ∧
      u.ctrs = s.ctrs ∧ u.evf.offers.length + l.length + 1 = s.evf.offers.length ∧ ch ∈ chs ∧ ∀ x, x ∈ l → ch < x) ∧
    (∀ c chs u, takeOffers s c chs = ([], u) → Does (.offerTaken c chs) s s) ∧
    (∀ c chs, (∀ o, o ∈ s.evf.offers → o.consumer = c → cycleNow s < o.due) → Does (.offerTaken c chs) s s) ∧
    (∀ n c, takingCycle s n c = if (s.chCfg n).bit 1 = false then cycleNow s
      else if consAon c = true then (s.hub.tick + 2) * 20
      else if s.chAon n = true then s.hub.tick * 20 + 2 else cycleNow s + 2) ∧
    (∀ r k, k < 4 → ServedRead s r Pg.EVF (Off.EVF_FCAP_NS k) →
      let c := storeLook s.evf.fcap k {}
      let sec := c.value / 1000000000
      Does (.fcapRead r k) s (served (setShadow (setShadow { s with evf := { s.evf with
          fcap := storePut s.evf.fcap k {} { c with missed := false, valid := false } } }
        r.path Pg.EVF (Off.EVF_FCAP_SEC_LO k) (BitVec.ofNat 32 sec))
        r.path Pg.EVF (Off.EVF_FCAP_INFO k) (captureInfo c (sec / 2 ^ 32))) r (BitVec.ofNat 32 (c.value % 1000000000)))) ∧
    ∀ r k, k < 4 → ServedRead s r Pg.EVF (Off.EVF_ACAP_LO k) →
      let c := storeLook s.evf.acap k {}
      Does (.acapRead r k) s (served (setShadow (setShadow { s with evf := { s.evf with
          acap := storePut s.evf.acap k {} { c with missed := false, valid := false } } }
        r.path Pg.EVF (Off.EVF_ACAP_HI k) (BitVec.ofNat 32 (c.value / 2 ^ 32)))
        r.path Pg.EVF (Off.EVF_ACAP_INFO k) (captureInfo c 0)) r (BitVec.ofNat 32 c.value))

/-! ## USB, the LMF and the HKP mailbox (chapter 17) -/

/-- R464, R465, R468, R469, R471 to R473: VBUS attaches a hub that has started and its loss detaches it with the session; a bus
reset leaves the Default state at the negotiated speed; suspend closes the session and resume ends it; remote wake needs a
request and its permissions; overcurrent takes a port's power and is reported; PORT_POWER acts while the hub can be addressed.
Readings: log 49, 54. -/
def Obligations.UsbHub : Prop :=
  ∀ s : State,
    (s.usb.hubStarted = true → s.en Pg.USBH = true → s.usb.up = .detached → Does .vbusValid s (raise (onUsb s fun u =>
      { u with vbus := true, up := .attached, outExp := 0, inNext := 0, lastTaken := 0xFFFF }) Pg.USBH 1)) ∧
    (s.usb.hubStarted = false ∨ s.en Pg.USBH = false ∨ s.usb.up ≠ .detached →
      Does .vbusValid s (onUsb s fun u => { u with vbus := true })) ∧
    (∀ u, u = closeSession (onUsb s fun x => usbUnplugged { x with vbus := false }) →
      Does .vbusInvalid s (if s.usb.up ≠ .detached ∧ s.coreOn = true then raise u Pg.USBH 2 else u)) ∧
    (∀ hs, (s.usb.up = .detached ∨ s.coreOn = false → Does (.busReset hs) s s) ∧
      (s.usb.up ≠ .detached → s.coreOn = true → Reaches (.busReset hs) s fun t =>
        t.usb.up = .default ∧ t.usb.suspended = false ∧ t.usb.highSpeed = (hs && !s.bit Pg.USBH Off.USBH_USBH_CFG 0) ∧
        t.usb.rwakeHub = false ∧ t.usb.rwakeLmf = false ∧ t.sec.session = false ∧ t.bit Pg.USBH Off.IRQ_FLAG 2 = true ∧
        t.ctr Pg.USBH 0x040 = min ctrMax (s.ctr Pg.USBH 0x040 + 1) ∧
        (s.usb.suspended = true → t.bit Pg.USBH Off.IRQ_FLAG 6 = true) ∧
        (t.usb.highSpeed = true → t.bit Pg.USBH Off.IRQ_FLAG 3 = true) ∧
        (∀ n, (t.dn n).power = false ∧ (t.dn n).connect = false ∧ (t.dn n).enable = false) ∧
        t.usb.outExp = s.usb.outExp ∧ t.usb.inNext = s.usb.inNext ∧ t.usb.bulk = s.usb.bulk ∧
        t.usb.haltOut = s.usb.haltOut ∧ t.usb.mailbox = s.usb.mailbox)) ∧
    (s.usb.up = .default → s.bit Pg.USBH Off.USBH_USBH_CFG 0 = false → Does .fsFallback s
      (raise (bump (onUsb s fun u => { u with highSpeed := false }) Pg.USBH 0x070) Pg.USBH 16)) ∧
    (s.usb.up ≠ .default ∨ s.bit Pg.USBH Off.USBH_USBH_CFG 0 = true → Does .fsFallback s s) ∧
    (hubTalks s = true → Does .suspend s
      (raise (bump (closeSession (onUsb s fun u => { u with suspended := true, sofCycles := 0, sofRuns := false }))
        Pg.USBH 0x048) Pg.USBH 32)) ∧
    (hubTalks s = false → Does .suspend s s) ∧
    (s.usb.suspended = true → s.coreOn = true → Does .resume s
      (raise (bump (onUsb s fun u => { u with suspended := false }) Pg.USBH 0x050) Pg.USBH 64)) ∧
    (s.usb.suspended = false ∨ s.coreOn = false → Does .resume s s) ∧
    (s.pwr.state = .park → s.usb.parkAttached = true → Does .usbResumeWake s (latchWake s 0x10)) ∧
    (s.pwr.state ≠ .park ∨ s.usb.parkAttached = false → Does .usbResumeWake s s) ∧
    (s.pwr.state ≠ .park → s.usb.suspended = true → s.usb.rwakeHub = true → s.usb.rwakeLmf = true → s.usb.rwakeReq = true →
      Does .remoteWake s (raise (bump s Pg.USBH 0x058) Pg.USBH 0x80)) ∧
    (s.pwr.state = .park → s.usb.parkAttached = true → s.usb.parkPermission = true → s.usb.rwakeReq = true →
      Does .remoteWake s s ∧ Reaches .remoteWake s fun t => t.usb.rwakeReq = false) ∧
    (s.usb.rwakeReq = false ∨ (s.pwr.state = .park ∧ (s.usb.parkAttached = false ∨ s.usb.parkPermission = false)) ∨
      (s.pwr.state ≠ .park ∧ (s.usb.suspended = false ∨ s.usb.rwakeHub = false ∨ s.usb.rwakeLmf = false)) →
      Does .remoteWake s s) ∧
    (∀ n, n < 2 → s.coreOn = true → s.usb.hubStarted = true →
      ((s.dn n).ocN = true → Does (.overcurrent n) s (raise (bump (onDn s n fun p =>
        { (portOff p) with ocN := false, overCurrent := true, ocChange := true }) Pg.USBH (0x060 + 8 * n)) Pg.USBH
          (BitVec.ofNat 32 (2 ^ (8 + n))))) ∧
      ((s.dn n).overCurrent = true → Does (.ocRelease n) s (onDn s n fun p =>
        { p with ocN := true, overCurrent := false }))) ∧
    (∀ n, 2 ≤ n ∨ s.coreOn = false ∨ s.usb.hubStarted = false → Does (.overcurrent n) s s ∧ Does (.ocRelease n) s s) ∧
    (∀ n, ((s.dn n).ocN = false → Does (.overcurrent n) s s) ∧ ((s.dn n).overCurrent = false → Does (.ocRelease n) s s)) ∧
    (hubTalks s = true →
      (∀ n, n < 2 →
        (s.bit Pg.USBH Off.USBH_USBH_CFG (1 + n) = true → (s.dn n).overCurrent = false →
          Does (.portPower n true) s (onDn s n fun p => { p with power := true })) ∧
        (s.bit Pg.USBH Off.USBH_USBH_CFG (1 + n) = false ∨ (s.dn n).overCurrent = true → Does (.portPower n true) s s) ∧
        Does (.portPower n false) s (onDn s n portOff)) ∧
      Does (.portPower 3 true) s (onUsb s fun u => { u with lmfPower := true }) ∧
      Does (.portPower 3 false) s (closeSession (onUsb s fun u =>
        { u with lmfPower := false, up := if u.up = .configured then .address else u.up
                 lmfAddr := 0, rwakeLmf := false, ackOwed := false, ep0 := none }))) ∧
    ∀ n on, hubTalks s = false ∨ n = 2 ∨ 3 < n → Does (.portPower n on) s s

/-- R472, R475 to R478, R485 to R491: the LMF's standard requests change its state, its endpoints' halts and its remote wake; a
register request of one word makes one access of the LMF path and answers it; a request not of Table 17.4 is stalled and
counted; an OUT packet is taken in its order, repeated, refused, or halts the endpoint; an owed ACK leaves; SEQ_RESET clears the
sequence. Readings: log 9, 31, 48, 50, 51. -/
def Obligations.LmfRequests : Prop :=
  ∀ s : State,
    (∀ on, (hubTalks s = true → Does (.deviceRemoteWakeup true on) s (onUsb s fun u => { u with rwakeHub := on })) ∧
      (hubTalks s = false → Does (.deviceRemoteWakeup true on) s s) ∧
      (lmfTalks s = true → Does (.deviceRemoteWakeup false on) s (onUsb s fun u => { u with rwakeLmf := on })) ∧
      (lmfTalks s = false → Does (.deviceRemoteWakeup false on) s s)) ∧
    (lmfTalks s = true →
      Does (.setConfiguration 1) s (raise (onUsb s fun u =>
        { u with up := .configured, rwakeHub := false, rwakeLmf := false }) Pg.USBH 0x400) ∧
      Does (.setConfiguration 0) s (onUsb s fun u => { u with up := .address, rwakeHub := false, rwakeLmf := false }) ∧
      (s.usb.haltOut = false → Does (.setFeatureEndpointHalt 0x01) s
        (raise (onUsb s fun u => { u with haltOut := true, haltCause := 0 }) Pg.LMF 1)) ∧
      (s.usb.haltOut = true → Does (.setFeatureEndpointHalt 0x01) s s) ∧
      Does (.setFeatureEndpointHalt 0x81) s (onUsb s fun u => { u with haltIn := true }) ∧
      Does (.setFeatureEndpointHalt 0x82) s (onUsb s fun u => { u with haltEp2 := true }) ∧
      (s.pwr.state ≠ .harvest → Does (.clearFeatureEndpointHalt 0x01) s (onUsb s fun u =>
        { u with haltOut := false, haltCause := 0, inNext := (u.inNext + 1) % 65536, ackOwed := false })) ∧
      (s.pwr.state = .harvest → Does (.clearFeatureEndpointHalt 0x01) s (onUsb s fun u =>
        { u with haltOut := false, haltCause := 0 })) ∧
      Does (.clearFeatureEndpointHalt 0x81) s (onUsb s fun u => { u with haltIn := false }) ∧
      Does (.clearFeatureEndpointHalt 0x82) s (onUsb s fun u => { u with haltEp2 := false })) ∧
    (∀ v, lmfTalks s = false ∨ 1 < v → Does (.setConfiguration v) s s) ∧
    (∀ ep, lmfTalks s = false ∨ ep ∉ [0x01, 0x81, 0x82] →
      Does (.setFeatureEndpointHalt ep) s s ∧ Does (.clearFeatureEndpointHalt ep) s s) ∧
    (∀ p, (lmfServes s = false → Does (.regRead p) s s ∧ ∀ data, Does (.regWrite p data) s s) ∧
      (lmfServes s = true →
        let a := setupAddr p % 0x1000000
        (regSetupHolds p 0xC0 0x01 8 = false →
          Does (.regRead p) s (bump (onUsb s fun u => { u with ep0 := none }) Pg.USBH 0x078)) ∧
        (regSetupHolds p 0xC0 0x01 8 = true → p.length = 8 → let u := regReadAcc s (setupReq p) a
          Does (.regRead p) s (onUsb u fun x => { x with ep0 := some (resultBytes (lastAnswer u .lmf)) })) ∧
        (regSetupHolds p 0xC0 0x01 8 = true → Reaches (.regRead p) s fun t =>
          ∃ bs, t.usb.ep0 = some bs ∧ bs.length = p.length) ∧
        (regSetupHolds p 0x40 0x02 4 = false → ∀ data,
          Does (.regWrite p data) s (bump (onUsb s fun u => { u with ep0 := none }) Pg.USBH 0x078)) ∧
        (regSetupHolds p 0x40 0x02 4 = true → ∀ data, data.length * 4 ≠ p.length → Does (.regWrite p data) s s) ∧
        (regSetupHolds p 0x40 0x02 4 = true → p.length = 4 → ∀ w, let u := regWriteAcc s (setupReq p) a w
          let code := (lastAnswer u .lmf).code
          (code = 0 → Does (.regWrite p [w]) s (onUsb (setReg u Pg.LMF Off.LMF_WR_STATUS (wrStatus 1 0 none))
            fun x => { x with ep0 := some [] })) ∧
          (code ≠ 0 → Does (.regWrite p [w]) s (raise (onUsb (setReg u Pg.LMF Off.LMF_WR_STATUS (wrStatus 1 1 (some (0, code))))
            fun x => { x with ep0 := none }) Pg.LMF 8))))) ∧
    (∀ p, lmfTalks s = true → s.lmfLive = true → s.inRun = true → s.usb.haltOut = false → s.usb.bulk.length < 8 →
      let d := (p.lseq % 65536 + 65536 - s.usb.outExp) % 65536
      let ack (u : UsbState) : UsbState := { u with inNext := (u.inNext + 1) % 65536, ackOwed := false }
      (outFault p ≠ 0 → Does (.outPacket p) s
        (raise (onUsb s fun u => { u with haltOut := true, haltCause := outFault p }) Pg.LMF 1)) ∧
      (outFault p = 0 → d = 0 → Does (.outPacket p) s
        (onUsb { s with fratra := { s.fratra with nextOrder := s.fratra.nextOrder + 1 } } fun u =>
          { u with outExp := (u.outExp + 1) % 65536, lastTaken := p.lseq % 65536
                   bulk := u.bulk ++ [(s.fratra.nextOrder, p)], ackOwed := u.ackOwed || decide (p.byte2.toNat % 8 = 0) })) ∧
      (outFault p = 0 → 32768 ≤ d → Does (.outPacket p) s (onUsb s ack)) ∧
      (outFault p = 0 → 0 < d → d < 32768 → Does (.outPacket p) s (raise (onUsb s ack) Pg.LMF 2))) ∧
    (∀ p, lmfTalks s = false ∨ s.lmfLive = false ∨ s.inRun = false ∨ s.usb.haltOut = true ∨ 8 ≤ s.usb.bulk.length →
      Does (.outPacket p) s s) ∧
    (s.usb.ackOwed = true → s.pwr.state ≠ .harvest → Does .ackDelay s (onUsb s fun u =>
      { u with inNext := (u.inNext + 1) % 65536, ackOwed := false })) ∧
    (s.usb.ackOwed = false ∨ s.pwr.state = .harvest → Does .ackDelay s s) ∧
    ∀ r w, Served s r Pg.LMF Off.LMF_LMF_CMD w → w.bit 0 = true → Does (.seqReset r w) s (served (onUsb s fun u =>
      { u with outExp := 0, inNext := 0, lastTaken := 0xFFFF, bulk := [], ackOwed := false }) r 0)

/-- R479 to R483: a message of the LMF enters the free mailbox, and one that finds it taken is stalled and recorded;
the HKP composes the reply that Table 17.6 gives to FW_INFO, IMG_BEGIN, IMG_DATA and IMG_END; MBOX_DONE and
MBOX_TIMEOUT make a reply ready, which frees the mailbox of an operation; HKP_MAILBOX IN takes an LMF reply, and one
not taken is discarded. Readings: log 43, 44, 45, 46, 47, 143. -/
def Obligations.HkpMailbox : Prop :=
  ∀ s : State,
    (∀ p msg, (lmfServes s = false → Does (.hkpMailboxOut p msg) s s ∧ Does (.hkpMailboxIn p) s s) ∧
      (lmfServes s = true →
        let wellFormed (t : Nat) := setupHolds p t 0x03 = true ∧ p.value = 0 ∧ p.index = 0
        let bad := bump (onUsb s fun u => { u with ep0 := none }) Pg.USBH 0x078
        (¬ (wellFormed 0x40 ∧ 8 ≤ p.length ∧ p.length ≤ 4096) → Does (.hkpMailboxOut p msg) s bad) ∧
        (wellFormed 0x40 → 8 ≤ p.length → p.length ≤ 4096 →
          (msg.length ≠ p.length → Does (.hkpMailboxOut p msg) s s) ∧
          (msg.length = p.length → s.usb.mailbox = none → Does (.hkpMailboxOut p msg) s (bump (onUsb s fun u =>
            { u with mailbox := some { lmf := true, opTag := none, sec := s.sec.session, msg := msg }
                     ep0 := some [] }) Pg.HKP 0x040)) ∧
          (msg.length = p.length → s.usb.mailbox ≠ none → Reaches (.hkpMailboxOut p msg) s fun t =>
            t.usb.ep0 = none ∧ t.usb.mailbox = s.usb.mailbox ∧ t.bit Pg.HKP Off.IRQ_FLAG 2 = true ∧
            t.ctr Pg.HKP 0x058 = min ctrMax (s.ctr Pg.HKP 0x058 + 1) ∧
            (s.fld Pg.HKP Off.ERR_CODE 7 0 = 0 → t.fld Pg.HKP Off.ERR_CODE 7 0 = 1))) ∧
        (¬ (wellFormed 0xC0 ∧ p.length = 4096) → Does (.hkpMailboxIn p) s bad) ∧
        (wellFormed 0xC0 → p.length = 4096 →
          (∀ m r, s.usb.mailbox = some m → m.lmf = true → m.reply = some r →
            Does (.hkpMailboxIn p) s (onUsb s fun u => { u with mailbox := none, ep0 := some r })) ∧
          ((∀ m, s.usb.mailbox = some m → m.lmf = false ∨ m.reply = none) →
            Does (.hkpMailboxIn p) s (onUsb s fun u => { u with ep0 := some [] }))))) ∧
    (mbWaiting s 0x0001 = none → Does .fwInfo s s) ∧ (mbWaiting s 0x0010 = none → Does .imgBegin s s) ∧
    (mbWaiting s 0x0011 = none → Does .imgData s s) ∧
    (mbWaiting s 0x0012 = none → ∀ ok good, Does (.imgEnd ok good) s s) ∧
    (∀ m, mbWaiting s 0x0001 = some m →
      (mbLen m.msg ≠ 0 → Does .fwInfo s (compose s m Mb.BAD_LEN 0 [])) ∧
      (mbLen m.msg = 0 → Does .fwInfo s (compose s m Mb.OK 0 (beBytes 2 (s.fld Pg.SEC Off.SEC_BOOT_VER 15 0) ++
        [BitVec.ofNat 8 (s.fld Pg.SEC Off.SEC_SEC_STAT 2 1), BitVec.ofNat 8 (s.fld Pg.SEC Off.SEC_SEC_STAT 5 4),
          BitVec.ofNat 8 (s.fld Pg.RST Off.RST_IMAGE_INFO 0 0), 0, 0, 0] ++
        (s.reg Pg.SYS Off.SYS_SERIAL_HI).bytes ++ (s.reg Pg.SYS Off.SYS_SERIAL_LO).bytes)))) ∧
    (∀ m, mbWaiting s 0x0010 = some m →
      let target := ((m.msg.drop 8).headD 0).toNat
      let total := beNat ((m.msg.drop 12).take 4)
      let lenOk := mbLen m.msg = 8 ∧ 160 ≤ total ∧ total ≤ 4194448 ∧ total % 16 = 0
      (¬ lenOk → Does .imgBegin s (compose s m Mb.BAD_LEN 0 [])) ∧
      (lenOk → 1 ≤ target → target ≤ 4 → m.sec = false → Does .imgBegin s (compose s m Mb.SEC_REQUIRED 0 [])) ∧
      (lenOk → (target = 0 → s.pwr.usbWait = true) → (1 ≤ target → s.inRun = true ∧ m.sec = true) → target ≤ 4 →
        Does .imgBegin s (compose (onUsb s fun u => { u with image := some { target := target, total := total } }) m Mb.OK 0 [])) ∧
      (lenOk → 4 < target ∨ (target = 0 ∧ s.pwr.usbWait = false) ∨ (1 ≤ target ∧ s.inRun = false ∧ m.sec = true) →
        Does .imgBegin s (compose s m Mb.NOT_ALLOWED 0 []))) ∧
    (∀ m, mbWaiting s 0x0011 = some m →
      let bytes := m.msg.drop 12
      (mbLen m.msg < 5 ∨ 4088 < mbLen m.msg → Does .imgData s (compose s m Mb.BAD_LEN 0 [])) ∧
      (5 ≤ mbLen m.msg → mbLen m.msg ≤ 4088 →
        (s.usb.image = none → Does .imgData s (compose s m Mb.SEQUENCE 0 [])) ∧
        ∀ i, s.usb.image = some i →
          (beNat ((m.msg.drop 8).take 4) ≠ i.data.length → Does .imgData s (compose s m Mb.SEQUENCE 0 [])) ∧
          (beNat ((m.msg.drop 8).take 4) = i.data.length →
            (i.total < i.data.length + bytes.length → Does .imgData s (compose s m Mb.BAD_LEN 0 [])) ∧
            (i.data.length + bytes.length ≤ i.total → Does .imgData s (compose
              (onUsb s fun u => { u with image := some { i with data := i.data ++ bytes } }) m Mb.OK 0 []))))) ∧
    (∀ m ok good, mbWaiting s 0x0012 = some m →
      (mbLen m.msg ≠ 0 → Does (.imgEnd ok good) s (compose s m Mb.BAD_LEN 0 [])) ∧
      (mbLen m.msg = 0 → (s.usb.image = none → Does (.imgEnd ok good) s (compose s m Mb.SEQUENCE 0 [])) ∧
        ∀ i, s.usb.image = some i →
          (i.data.length ≠ i.total → Does (.imgEnd ok good) s (compose s m Mb.SEQUENCE 0 [])) ∧
          (i.data.length = i.total → let img : ImageRead := { readOk := true, bytes := i.data }
            let code := imageFault s img
            let u := onUsb s fun x => { x with image := none }
            (code ≠ 0 → i.target ≠ 0 → Does (.imgEnd ok good) s (compose u m Mb.VERIFY code [])) ∧
            (code ≠ 0 → i.target = 0 → Does (.imgEnd ok good) s
              (compose (refuseImage u s.pwr.tried code) m Mb.VERIFY code [])) ∧
            (code = 0 → i.target = 0 → Does (.imgEnd ok good) s
              (acceptImage (compose u m Mb.OK 0 []) 2 1 s.pwr.tried img)) ∧
            (code = 0 → i.target ≠ 0 → (ok && good) = true → Does (.imgEnd ok good) s (compose (bump (onUsb u fun x =>
              { x with copies := storeInsert x.copies i.target i.data }) Pg.HKP 0x060) m Mb.OK 0 [])) ∧
            (code = 0 → i.target ≠ 0 → (ok && good) = false → Does (.imgEnd ok good) s (compose (onUsb u fun x =>
              { x with copies := storeErase x.copies i.target }) m Mb.WRITE_ERR 0 []))))) ∧
    (∀ m, s.usb.mailbox = some m → m.reply = none →
      let ready (c : Instr) (u : State) (r : List Byte) :=
        (m.opTag = none → Does c s (raise (onUsb u fun x => { x with mailbox := some { m with reply := some r } }) Pg.HKP 1)) ∧
        ∀ k, m.opTag = some k → Does c s (finishOp (onUsb (setFlag u Pg.HKP 0) fun x => { x with mailbox := none }) k
          { status := St.OK, total := r.length, value := r })
      (hkpServes s = false → Does .mboxDone s s) ∧
      (hkpServes s = true →
        (∀ r, m.composed = some r → ready .mboxDone (bump s Pg.HKP 0x048) r) ∧
        (m.composed = none → mbWhole m.msg = false →
          ready .mboxDone (bump s Pg.HKP 0x048) (mbReply m.msg Mb.BAD_LEN 0 [])) ∧
        (m.composed = none → mbWhole m.msg = true → mbType m.msg ∈ [0x0001, 0x0010, 0x0011, 0x0012] → Does .mboxDone s s) ∧
        (m.composed = none → mbWhole m.msg = true → mbType m.msg ∉ [0x0001, 0x0010, 0x0011, 0x0012] →
          ready .mboxDone (bump s Pg.HKP 0x048) (mbReply m.msg Mb.UNKNOWN 0 []))) ∧
      ready .mboxTimeout (setFlag (bump s Pg.HKP 0x050) Pg.HKP 1) (mbReply m.msg Mb.TIMEOUT 0 [])) ∧
    (∀ m r, s.usb.mailbox = some m → m.reply = some r → Does .mboxDone s s ∧ Does .mboxTimeout s s ∧
      (m.lmf = true → Does .replyDiscard s (onUsb s fun u => { u with mailbox := none })) ∧
      (m.lmf = false → Does .replyDiscard s s)) ∧
    (s.usb.mailbox = none → Does .mboxDone s s ∧ Does .replyDiscard s s ∧
      (s.fratra.ops.all (fun e => decide (e.2.phase ≠ .mailbox)) = true → Does .mboxTimeout s s) ∧
      ∀ k o, s.fratra.ops.find? (fun e => decide (e.2.phase = .mailbox)) = some (k, o) →
        let r := mbReply o.data Mb.TIMEOUT 0 []
        Does .mboxTimeout s (finishOp (setFlag (bump s Pg.HKP 0x050) Pg.HKP 1) k
          { status := St.OK, total := r.length, value := r }))
end

