-- ==== Sys2Proof/Laws/Store.lean ====
section
/-! SUPPORT. Laws/Store.lean: what a sparse store reads after a write, and that a write keeps its canonical form. -/

namespace Sys2Proof.Machine

variable {α : Type}

theorem storeFind_erase_self (m : Store α) (k : Nat) : storeFind (storeErase m k) k = none := by
  induction m with
  | nil => rfl
  | cons e m ih =>
    obtain ⟨j, v⟩ := e
    by_cases h : j = k
    · simpa [storeErase, h] using ih
    · simpa [storeErase, h, storeFind] using ih

theorem storeFind_erase_ne (m : Store α) {j k : Nat} (h : j ≠ k) : storeFind (storeErase m k) j = storeFind m j := by
  induction m with
  | nil => rfl
  | cons e m ih =>
    obtain ⟨i, v⟩ := e
    by_cases hk : i = k
    · subst hk
      simpa [storeErase, storeFind, Ne.symm h] using ih
    · have hc : storeErase ((i, v) :: m) k = (i, v) :: storeErase m k := by simp [storeErase, hk]
      rw [hc]
      simp only [storeFind, ih]

theorem storeFind_insert_self (m : Store α) (k : Nat) (v : α) : storeFind (storeInsert m k v) k = some v := by
  induction m with
  | nil => simp [storeInsert, storeFind]
  | cons e m ih =>
    obtain ⟨j, u⟩ := e
    unfold storeInsert
    split
    · simp [storeFind]
    · split
      · simp [storeFind]
      · rename_i h1 h2
        simpa [storeFind, Ne.symm h2] using ih

theorem storeFind_insert_ne (m : Store α) {j k : Nat} (h : j ≠ k) (v : α) :
    storeFind (storeInsert m k v) j = storeFind m j := by
  induction m with
  | nil => simp [storeInsert, storeFind, Ne.symm h]
  | cons e m ih =>
    obtain ⟨i, u⟩ := e
    unfold storeInsert
    split
    · simp [storeFind, Ne.symm h]
    · split
      · rename_i h2
        subst h2
        simp [storeFind, Ne.symm h]
      · simp [storeFind, ih]

/-- A key reads what was written to it. -/
@[simp] theorem storeLook_put_self [DecidableEq α] (m : Store α) (k : Nat) (d v : α) :
    storeLook (storePut m k d v) k d = v := by
  unfold storePut storeLook
  split
  · rename_i h
    simp [storeFind_erase_self, h]
  · simp [storeFind_insert_self]

/-- A write leaves every other key as it was. -/
theorem storeLook_put_ne [DecidableEq α] (m : Store α) {j k : Nat} (h : j ≠ k) (d d' v : α) :
    storeLook (storePut m k d v) j d' = storeLook m j d' := by
  unfold storePut storeLook
  split
  · simp [storeFind_erase_ne m h]
  · simp [storeFind_insert_ne m h]

/-- Every listed key of a store is above `k`. -/
def storeAbove (k : Nat) (m : Store α) : Prop := ∀ e ∈ m, k < e.1

theorem storeRising_cons (j : Nat) (v : α) (m : Store α) :
    storeRising ((j, v) :: m) = true ↔ storeAbove j m ∧ storeRising m = true := by
  induction m generalizing j v with
  | nil => simp [storeRising, storeAbove]
  | cons e m ih =>
    obtain ⟨k, u⟩ := e
    constructor
    · intro h
      simp only [storeRising, Bool.and_eq_true, decide_eq_true_eq] at h
      refine ⟨?_, h.2⟩
      intro e he
      rcases List.mem_cons.1 he with rfl | he
      · exact h.1
      · exact Nat.lt_trans h.1 (((ih k u).1 h.2).1 e he)
    · rintro ⟨ha, hr⟩
      simp only [storeRising, Bool.and_eq_true, decide_eq_true_eq]
      exact ⟨ha (k, u) (by simp), hr⟩

theorem mem_storeInsert {m : Store α} {k : Nat} {v : α} {e : Nat × α} (h : e ∈ storeInsert m k v) :
    e = (k, v) ∨ e ∈ m := by
  induction m with
  | nil => simpa [storeInsert] using h
  | cons c m ih =>
    obtain ⟨j, u⟩ := c
    unfold storeInsert at h
    split at h
    · simpa using h
    · split at h
      · rcases List.mem_cons.1 h with h | h
        · exact .inl h
        · exact .inr (List.mem_cons_of_mem _ h)
      · rcases List.mem_cons.1 h with h | h
        · exact .inr (by simp [h])
        · rcases ih h with h | h
          · exact .inl h
          · exact .inr (List.mem_cons_of_mem _ h)

theorem storeRising_insert (m : Store α) (k : Nat) (v : α) (h : storeRising m = true) :
    storeRising (storeInsert m k v) = true := by
  induction m with
  | nil => rfl
  | cons c m ih =>
    obtain ⟨j, u⟩ := c
    have hj := (storeRising_cons j u m).1 h
    unfold storeInsert
    split
    · rename_i hk
      rw [storeRising_cons]
      refine ⟨?_, h⟩
      intro e he
      rcases List.mem_cons.1 he with rfl | he
      · exact hk
      · exact Nat.lt_trans hk (hj.1 e he)
    · split
      · rename_i hk
        subst hk
        exact (storeRising_cons k v m).2 hj
      · rename_i h1 h2
        rw [storeRising_cons]
        refine ⟨?_, ih hj.2⟩
        intro e he
        rcases mem_storeInsert he with rfl | he
        · show j < k
          omega
        · exact hj.1 e he

theorem storeRising_erase (m : Store α) (k : Nat) (h : storeRising m = true) : storeRising (storeErase m k) = true := by
  induction m with
  | nil => rfl
  | cons c m ih =>
    obtain ⟨j, u⟩ := c
    have hj := (storeRising_cons j u m).1 h
    by_cases hk : j = k
    · simpa [storeErase, hk] using ih hj.2
    · have : storeErase ((j, u) :: m) k = (j, u) :: storeErase m k := by simp [storeErase, hk]
      rw [this, storeRising_cons]
      exact ⟨fun e he => hj.1 e (List.mem_filter.1 he).1, ih hj.2⟩

/-- A write keeps the canonical form. -/
theorem storeCanonical_put [DecidableEq α] (d : Nat → α) (m : Store α) (k : Nat) (v : α)
    (h : storeCanonical d m = true) : storeCanonical d (storePut m k (d k) v) = true := by
  simp only [storeCanonical, Bool.and_eq_true, List.all_eq_true, decide_eq_true_eq] at h ⊢
  unfold storePut
  split
  · exact ⟨storeRising_erase m k h.1, fun e he => h.2 e (List.mem_filter.1 he).1⟩
  · rename_i hv
    refine ⟨storeRising_insert m k v h.1, fun e he => ?_⟩
    rcases mem_storeInsert he with rfl | he
    · exact hv
    · exact h.2 e he

/-! ## Registers, counters, shadows -/

/-- A register reads what was put into it. -/
@[simp] theorem reg_setReg_self (s : State) (page off : Nat) (w : Word) : (setReg s page off w).reg page off = w := by
  simp [setReg, State.reg]

/-- Putting a register leaves every register at another address as it was. -/
theorem reg_setReg_ne (s : State) {page off page' off' : Nat} (w : Word) (h : addr page' off' ≠ addr page off) :
    (setReg s page off w).reg page' off' = s.reg page' off' := by
  simp [setReg, State.reg, storeLook_put_ne _ h]

/-- A counter reads what was put into it. -/
@[simp] theorem ctr_setCtr_self (s : State) (page off v : Nat) : (setCtr s page off v).ctr page off = v := by
  simp [setCtr, State.ctr]

/-- Putting a counter leaves every counter at another address as it was. -/
theorem ctr_setCtr_ne (s : State) {page off page' off' : Nat} (v : Nat) (h : addr page' off' ≠ addr page off) :
    (setCtr s page off v).ctr page' off' = s.ctr page' off' := by
  simp [setCtr, State.ctr, storeLook_put_ne _ h]

@[simp] theorem port_setPort_self (s : State) (k : Nat) (p : PortState) : (setPort s k p).port k = p := by
  simp [setPort, State.port]

theorem port_setPort_ne (s : State) {j k : Nat} (p : PortState) (h : j ≠ k) : (setPort s k p).port j = s.port j := by
  simp [setPort, State.port, storeLook_put_ne _ h]

@[simp] theorem ten_setTen_self (s : State) (n : Nat) (t : Tenant) : (setTen s n t).ten n = t := by
  simp [setTen, State.ten]

theorem ten_setTen_ne (s : State) {m n : Nat} (t : Tenant) (h : m ≠ n) : (setTen s n t).ten m = s.ten m := by
  simp [setTen, State.ten, storeLook_put_ne _ h]

end Sys2Proof.Machine
end

