-- ==== Sys2Proof/Laws/Settle.lean ====
section
/-! SUPPORT. Laws/Settle.lean: what deliveries of interrupts and the streams' credit may touch. Each operation that they
rest on is shown to stay `Within` it. -/

namespace Sys2Proof.Machine

variable {x : Nat → Nat → Prop}

theorem Within.refl (s : State) : Within x s s :=
  ⟨rfl, fun _ _ => rfl, fun _ _ h => h, fun _ _ h => .inl h, fun _ _ => rfl, fun _ => rfl, fun _ => rfl⟩

theorem Within.trans {s t u : State} (h : Within x s t) (k : Within x t u) : Within x s u :=
  ⟨k.core.trans h.core, fun a ha => (k.regs a ha).trans (h.regs a ha), fun p n hb => k.flags p n (h.flags p n hb),
    fun p n hb => (k.fresh p n hb).elim (h.fresh p n) .inr, fun a ha => (k.ctrs a ha).trans (h.ctrs a ha),
    fun n => (k.ports n).trans (h.ports n), fun n => (k.tens n).trans (h.tens n)⟩

theorem Within.mono {y : Nat → Nat → Prop} {s t : State} (h : Within x s t) (hxy : ∀ p n, x p n → y p n) : Within y s t :=
  ⟨h.core, h.regs, h.flags, fun p n hb => (h.fresh p n hb).imp_right (hxy p n), h.ctrs, h.ports, h.tens⟩

theorem Within.reg {s t : State} (h : Within x s t) (page off : Nat) (ho : off < 0x1000) (hf : off ≠ Off.IRQ_FLAG) :
    t.reg page off = s.reg page off := by
  refine h.regs _ ?_
  unfold addr
  omega

theorem Within.regAt {s t : State} (h : Within x s t) {page off : Nat} (hf : addr page off % 0x1000 ≠ Off.IRQ_FLAG) :
    t.reg page off = s.reg page off := h.regs _ hf

/-! ## Folds -/

theorem within_foldl {α : Type} (f : State → α → State) (l : List α) (hf : ∀ s a, a ∈ l → Within x s (f s a)) (s : State) :
    Within x s (l.foldl f s) := by
  induction l generalizing s with
  | nil => exact Within.refl s
  | cons a l ih =>
    exact (hf s a (by simp)).trans (ih (fun s b hb => hf s b (by simp [hb])) _)

theorem within_ite {s a b : State} (c : Prop) [Decidable c] (ha : Within x s a) (hb : Within x s b) :
    Within x s (if c then a else b) := by
  split
  · exact ha
  · exact hb

/-! ## Single updates -/

theorem within_of_parts {s t : State} (hc : coreView t = coreView s) (hr : t.regs = s.regs) (hk : t.ctrs = s.ctrs)
    (hp : t.ports = s.ports) (ht : t.fratra.tenants = s.fratra.tenants) : Within x s t :=
  ⟨hc, fun a _ => by rw [hr], fun p n h => by simpa [State.bit, State.reg, hr] using h,
    fun p n h => .inl (by simpa [State.bit, State.reg, hr] using h), fun a _ => by rw [hk],
    fun k => by simp [State.port, hp], fun n => by simp [State.ten, ht]⟩

theorem within_setHoldoff (s : State) (page dest : Nat) (h : HoldOff) : Within x s (setHoldoff s page dest h) :=
  within_of_parts rfl rfl rfl rfl rfl

theorem within_onUsb (s : State) (f : UsbState → UsbState) (hf : usbView (f s.usb) = usbView s.usb) :
    Within x s (onUsb s f) :=
  within_of_parts (by simp [coreView, onUsb, hf]) rfl rfl rfl rfl

theorem within_bumpBy (s : State) (page off n : Nat) (h : deliveryCtr (addr page off) = true) :
    Within x s (bumpBy s page off n) := by
  refine ⟨rfl, fun _ _ => rfl, fun _ _ h => h, fun _ _ h => .inl h, fun a ha => ?_, fun _ => rfl, fun _ => rfl⟩
  refine storeLook_put_ne _ ?_ _ _ _
  rintro rfl
  simp [h] at ha

theorem deliveryCtr_lmf (off : Nat) (h : off < 0x1000) : deliveryCtr (addr Pg.LMF off) = true := by
  have : addr Pg.LMF off / 0x1000 = Pg.LMF := by unfold addr; omega
  simp [deliveryCtr, this]

theorem deliveryCtr_ten (n off : Nat) (h : off = 0x078 ∨ off = 0x080 ∨ off = 0x090) :
    deliveryCtr (addr (Pg.TEN n) off) = true := by
  have hd : addr (Pg.TEN n) off / 0x1000 = Pg.TEN n := by unfold addr; omega
  have hm : addr (Pg.TEN n) off % 0x1000 = off := by unfold addr; omega
  have hp : 0x040 ≤ Pg.TEN n := by unfold Pg.TEN; omega
  simp only [deliveryCtr, hd, hm, hp, decide_true, Bool.true_and, Bool.or_eq_true, decide_eq_true_eq]
  right
  rcases h with h | h | h <;> simp [h]

theorem within_onPort (s : State) (k : Nat) (f : PortState → PortState)
    (hf : portView (f (s.port k)) = portView (s.port k)) : Within x s (onPort s k f) := by
  refine ⟨rfl, fun _ _ => rfl, fun _ _ h => h, fun _ _ h => .inl h, fun _ _ => rfl, fun j => ?_, fun _ => rfl⟩
  by_cases h : j = k
  · subst h
    simpa [onPort] using hf
  · rw [onPort, port_setPort_ne _ _ h]

theorem within_onTen (s : State) (n : Nat) (f : Tenant → Tenant) (hf : tenView (f (s.ten n)) = tenView (s.ten n)) :
    Within x s (onTen s n f) := by
  refine ⟨rfl, fun _ _ => rfl, fun _ _ h => h, fun _ _ h => .inl h, fun _ _ => rfl, fun _ => rfl, fun m => ?_⟩
  by_cases h : m = n
  · subst h
    simpa [onTen] using hf
  · rw [onTen, ten_setTen_ne _ _ h]

theorem bit_or (v m : Word) (n : Nat) : (v ||| m).bit n = (v.bit n || m.bit n) := by simp [Word.bit]

theorem within_raise (s : State) (page : Nat) (m : Word) (hm : ∀ n, m.bit n = true → x page n) :
    Within x s (raise s page m) := by
  refine ⟨rfl, fun a ha => ?_, fun p n h => ?_, fun p n h => ?_, fun _ _ => rfl, fun _ => rfl, fun _ => rfl⟩
  · refine storeLook_put_ne _ ?_ _ _ _
    rintro rfl
    simp only [addr, Off.IRQ_FLAG] at ha
    omega
  · by_cases hp : addr p Off.IRQ_FLAG = addr page Off.IRQ_FLAG
    · have : p = page := by unfold addr at hp; omega
      subst this
      have h' : (s.reg p Off.IRQ_FLAG).bit n = true := h
      simp [State.bit, raise, bit_or, h']
    · simpa [State.bit, raise, reg_setReg_ne s _ hp] using h
  · by_cases hp : addr p Off.IRQ_FLAG = addr page Off.IRQ_FLAG
    · have : p = page := by unfold addr at hp; omega
      subst this
      simp only [State.bit, raise, reg_setReg_self, bit_or, Bool.or_eq_true] at h
      exact h.imp id (hm n)
    · exact .inl (by simpa [State.bit, raise, reg_setReg_ne s _ hp] using h)

/-! ## Frames that leave -/

theorem within_chargeUnit (s : State) (kind : Nat) (b : Backlog) (idle : Bool) : Within x s (chargeUnit s kind b idle) := by
  unfold chargeUnit
  split
  · split
    · exact within_bumpBy _ _ _ _ (deliveryCtr_ten _ _ (by simp))
    · exact within_onTen _ _ _ rfl
  · exact Within.refl s

theorem within_beginTx (s : State) (k : Nat) (f : TxFrame) : Within x s (beginTx s k f) := by
  unfold beginTx
  exact within_onPort _ _ _ rfl

theorem within_startTx (s : State) (k : Nat) : Within x s (startTx s k) := by
  have go : ∀ (f : TxFrame) (g : PortState → PortState) (_ : ∀ p, portView (g p) = portView p) (s : State),
      Within x s (onPort (beginTx s k f) k g) :=
    fun f g hg s => (within_beginTx s k f).trans (within_onPort _ _ _ (hg _))
  unfold startTx
  simp only []
  split
  · exact Within.refl s
  · split
    · exact within_onPort _ _ _ rfl
    · split
      · refine go _ _ ?_ _; exact fun _ => rfl
      · split
        · refine go _ _ ?_ _; exact fun _ => rfl
        · split
          · exact within_onPort _ _ _ rfl
          · split
            · exact Within.refl s
            · refine ((within_onPort _ _ _ rfl).trans (within_chargeUnit _ _ _ _)).trans (go _ _ ?_ _); exact fun _ => rfl

theorem within_queueTx (s : State) (k : Nat) (f : TxFrame) : Within x s (queueTx s k f) :=
  (within_onPort _ _ _ rfl).trans (within_startTx _ _)

theorem within_flipToggle (s : State) (ep n : Nat) : Within x s (flipToggle s ep n) := by
  unfold flipToggle
  split
  · exact Within.refl s
  · exact within_onUsb _ _ rfl

theorem within_lmfFlush (s : State) : Within x s (lmfFlush s) := by
  have hb : ∀ (s : State) (off n : Nat), off < 0x1000 → Within x s (bumpBy s Pg.LMF off n) :=
    fun s off n h => within_bumpBy _ _ _ _ (deliveryCtr_lmf off h)
  refine Within.trans (t := flushIn s) ?_ ?_
  · unfold flushIn
    split
    · exact ((hb _ 0x048 _ (by omega)).trans (hb _ 0x050 _ (by omega))).trans
        ((within_flipToggle _ _ _).trans (within_onUsb _ _ rfl))
    · exact Within.refl _
  · unfold lmfFlush flushEp2
    split
    · exact (hb _ 0x070 _ (by omega)).trans ((within_flipToggle _ _ _).trans (within_onUsb _ _ rfl))
    · exact Within.refl _

/-! ## NOTIFY and interrupt delivery -/


theorem within_takeNotifySeq (s : State) (n : Nat) : Within x s (takeNotifySeq s n) := within_onTen _ _ _ rfl

theorem within_notifyAll (n kind : Nat) (seq : Word) (key : List Byte) (status : Nat) (payload : List Byte)
    (l : List Nat) (s : State) : Within x s (overList (notifyOne n kind seq key status payload) l s) := by
  induction l generalizing s with
  | nil => exact Within.refl s
  | cons k l ih => exact (within_queueTx s k _).trans (ih _)

theorem within_sendNotify (s : State) (n kind : Nat) (key : List Byte) (status : Nat) (payload : List Byte) :
    Within x s (sendNotify s n kind key status payload) := by
  unfold sendNotify
  split
  · exact (within_takeNotifySeq _ _).trans (within_bumpBy _ _ _ _ (deliveryCtr_ten _ _ (by simp)))
  · have h1 := within_notifyAll (x := x) n kind (BitVec.ofNat 32 (s.ten n).notifySeq) key status payload (notifyPorts s n) s
    refine Within.trans (h1.trans ?_) (within_takeNotifySeq _ _)
    exact within_ite _ (within_bumpBy _ _ _ _ (deliveryCtr_ten _ _ (by simp))) (Within.refl _)

theorem within_requestRemoteWake (s : State) : Within x s (requestRemoteWake s) := by
  unfold requestRemoteWake
  exact within_ite _ (within_onUsb s (fun u => { u with rwakeReq := true }) rfl) (Within.refl s)

theorem within_deliverLmf (dropped : State → State) (hd : ∀ s, Within x s (dropped s)) (s : State) (d : Option Delivery) :
    Within x s (deliverLmf dropped s d) := by
  have h0 : ∀ s : State, Within x s (onUsb s fun u => { u with nseq := (u.nseq + 1) % 65536 }) :=
    fun s => within_onUsb _ _ rfl
  have hb : ∀ s : State, Within x s (dropped (bump s Pg.LMF 0x078)) :=
    fun s => (within_bumpBy _ _ _ _ (deliveryCtr_lmf _ (by omega))).trans (hd _)
  unfold deliverLmf
  cases d with
  | none => exact (h0 s).trans (hb _)
  | some d =>
    simp only []
    split
    · have h1 : ∀ (s : State) (r : Ep2Report), Within x s (lmfFlush (onUsb s fun u => { u with ep2 := u.ep2 ++ [r] })) :=
        fun s r => (within_onUsb s (fun u => { u with ep2 := u.ep2 ++ [r] }) rfl).trans (within_lmfFlush _)
      split
      · exact ((h0 s).trans (h1 _ _)).trans (within_requestRemoteWake _)
      · exact (h0 s).trans (h1 _ _)
    · exact (h0 s).trans (hb _)

theorem within_pins (s : State) (a b : List Nat) : Within x s { s with irq0 := a, irq1 := b } :=
  within_of_parts rfl rfl rfl rfl rfl

theorem within_attemptDest (dropped : State → State) (hd : ∀ s, Within x s (dropped s)) (page : Nat) (s : State)
    (dest : Nat) : Within x s (attemptDest dropped page s dest) := by
  unfold attemptDest
  split
  · exact Within.refl s
  · simp only []
    split
    · exact within_setHoldoff _ _ _ _
    · split
      · split
        · exact (within_setHoldoff _ _ _ _).trans (within_sendNotify _ _ _ _ _ _)
        · exact (within_setHoldoff s page 1 _).trans (within_pins _ _ _)
        · exact (within_setHoldoff s page 2 _).trans (within_pins _ _ _)
        · exact (within_setHoldoff _ _ _ _).trans (within_deliverLmf _ hd _ _)
      · split
        · exact (within_setHoldoff _ _ _ _).trans (within_deliverLmf _ hd _ _)
        · exact within_setHoldoff _ _ _ _

theorem deliveredFuel (fuel : Nat) (s : State) (page : Nat) (mask : Word) :
    Delivered (raise s page mask) (setFlagsFuel fuel s page mask) := by
  induction fuel generalizing s page mask with
  | zero => exact Within.refl _
  | succ fuel ih =>
    have hd : ∀ s, Delivered s (setFlagsFuel fuel s Pg.LMF 4) := fun s =>
      (within_raise s Pg.LMF 4 fun n hn => ⟨rfl, by
        have h4 : (4 : Word) = BitVec.twoPow 32 2 := by decide
        simp only [Word.bit, h4, BitVec.getLsbD_twoPow, Bool.and_eq_true, decide_eq_true_eq] at hn
        exact hn.2.symm⟩).trans (ih s Pg.LMF 4)
    unfold setFlagsFuel
    simp only []
    split
    · exact Within.refl _
    · exact within_foldl _ _ (fun s d _ => within_attemptDest _ hd _ _ _) _

/-- A hardware set of flags sets them, and makes deliveries (R73, R81). -/
theorem delivered_setFlags (s : State) (page : Nat) (mask : Word) :
    Delivered (raise s page mask) (setFlags s page mask) := deliveredFuel 3 s page mask

/-! ## Credit -/

theorem map_replaceStream (c d : StreamCtx) (hd : streamView d = streamView c) (l : List StreamCtx)
    (h : l.find? (fun e => decide (e.id = c.id)) = some c) :
    (replaceStream d l).map streamView = l.map streamView := by
  have hid : d.id = c.id := by
    have : (streamView d).id = (streamView c).id := by rw [hd]
    exact this
  induction l with
  | nil => rfl
  | cons e l ih =>
    by_cases he : e.id = c.id
    · simp only [List.find?_cons, he, decide_true, Option.some.injEq] at h
      subst h
      simp [replaceStream, hid, hd]
    · simp only [List.find?_cons, he, decide_false] at h
      simp [replaceStream, hid, he, ih h]

theorem within_creditOne (s : State) (i : StreamId) : Within x s (creditOne s i) := by
  unfold creditOne
  split
  · exact Within.refl s
  · rename_i c hc
    simp only []
    split
    · exact Within.refl s
    · have hi : c.id = i := by simpa using List.find?_some hc
      refine within_of_parts ?_ rfl rfl rfl rfl
      have hm := map_replaceStream c { c with limit := limitFor s c, held := streamHold s c.id.tenant
                                              owed := c.owed || decide (limitFor s c ≠ c.limit) || (c.held && !streamHold s c.id.tenant) }
        rfl s.fratra.streams (by rw [hi]; exact hc)
      simp only [coreView, putStream]
      rw [hm]

theorem within_creditAll (s : State) : Within x s (creditAll s) :=
  within_foldl _ _ (fun s i _ => within_creditOne s i) s

end Sys2Proof.Machine
end

