-- ==== Sys2Proof/Laws/Levels.lean ====
section
/-! SUPPORT. Laws/Levels.lean: the level-sourced conditions depend on nothing that the end of a command changes, and what
the end of a command may touch, said once: `settled_finish`. -/

namespace Sys2Proof.Machine

/-! ## What `Within` keeps, field by field -/

section
variable {x : Nat → Nat → Prop} {s t : State} (h : Within x s t)
include h

theorem Within.pwr : t.pwr = s.pwr := by have := congrArg State.pwr h.core; exact this
theorem Within.ftl : t.ftl = s.ftl := by have := congrArg State.ftl h.core; exact this
theorem Within.hrv : t.hrv = s.hrv := by have := congrArg State.hrv h.core; exact this
theorem Within.acd : t.acd = s.acd := by have := congrArg State.acd h.core; exact this
theorem Within.hub : t.hub = s.hub := by have := congrArg State.hub h.core; exact this
theorem Within.bus : t.bus = s.bus := by have := congrArg State.bus h.core; exact this
theorem Within.aqe : t.aqe = s.aqe := by have := congrArg State.aqe h.core; exact this
theorem Within.sec : t.sec = s.sec := by have := congrArg State.sec h.core; exact this
theorem Within.clk : t.clk = s.clk := by have := congrArg State.clk h.core; exact this
theorem Within.ft : t.ft = s.ft := by have := congrArg State.ft h.core; exact this
theorem Within.tat : t.tat = s.tat := by have := congrArg State.tat h.core; exact this
theorem Within.evf : t.evf = s.evf := by have := congrArg State.evf h.core; exact this
theorem Within.snap : t.snap = s.snap := by have := congrArg State.snap h.core; exact this
theorem Within.shadows : t.shadows = s.shadows := by have := congrArg State.shadows h.core; exact this
theorem Within.results : t.results = s.results := by have := congrArg State.results h.core; exact this
theorem Within.inReset : t.inReset = s.inReset := by have := congrArg State.inReset h.core; exact this
theorem Within.freeCtr : t.freeCtr = s.freeCtr := by have := congrArg State.freeCtr h.core; exact this
theorem Within.pending : t.pending = s.pending := by have := congrArg State.pending h.core; exact this
theorem Within.usb : usbView t.usb = usbView s.usb := by have := congrArg State.usb h.core; exact this
theorem Within.streams : t.fratra.streams.map streamView = s.fratra.streams.map streamView := by
  have := congrArg (fun u => u.fratra.streams) h.core; exact this
theorem Within.ops : t.fratra.ops = s.fratra.ops := by have := congrArg (fun u => u.fratra.ops) h.core; exact this
theorem Within.keys (n : Nat) : (t.ten n).keys = (s.ten n).keys := by
  have := congrArg Tenant.keys (h.tens n); exact this
theorem Within.streamCount : t.fratra.streams.length = s.fratra.streams.length := by
  simpa using congrArg List.length h.streams

end

/-! ## The figures the conditions rest on -/

section
variable {x : Nat → Nat → Prop} {s t : State} (h : Within x s t)
include h

theorem Within.fld (page off msb lsb : Nat) (ho : off < 0x1000) (hf : off ≠ Off.IRQ_FLAG) :
    t.fld page off msb lsb = s.fld page off msb lsb := by simp [State.fld, h.reg page off ho hf]

theorem Within.bitAt (page off n : Nat) (ho : off < 0x1000) (hf : off ≠ Off.IRQ_FLAG) :
    t.bit page off n = s.bit page off n := by simp [State.bit, h.reg page off ho hf]

theorem Within.lun (n : Nat) : t.lun n = s.lun n := by simp [State.lun, h.ftl]
theorem Within.rotation : rotation t = rotation s := by simp [Machine.rotation, h.ftl]
theorem Within.refPart : refPart t = refPart s := by simp [Machine.refPart, h.ftl]

theorem Within.keyTotal : keyTotal t = keyTotal s := by simp [Machine.keyTotal, keyCount, h.keys]

theorem Within.quota (n : Nat) : t.quotaBytes n = s.quotaBytes n := by
  simp [State.quotaBytes, h.reg _ _ (by decide : Off.TEN_CAP_QUOTA < 0x1000) (by decide)]

theorem Within.used (n : Nat) : usedCharge t n = usedCharge s n := by simp [usedCharge, h.keys, h.ops]

theorem Within.opTags (n : Nat) : opTags t n = opTags s n := by simp [Machine.opTags, h.ops]

theorem Within.tagQuota (n : Nat) : t.optagQuota n = s.optagQuota n :=
  h.fld _ Off.TEN_OPTAG_QUOTA _ _ (by decide) (by decide)

theorem Within.tenLevels (n : Nat) : tenLevels t n = tenLevels s n := by
  have hk : (t.ten n).keyHold = (s.ten n).keyHold := by have := congrArg Tenant.keyHold (h.tens n); exact this
  unfold Machine.tenLevels
  rw [h.quota, h.used, h.opTags, h.tagQuota, hk]

theorem Within.gmap : gmapBytes t = gmapBytes s ∧ gmapLimit t = gmapLimit s := by
  simp [gmapBytes, gmapLimit, regionsResident, h.ftl, h.fld _ Off.FTL_GMAP_CFG _ _ (by decide) (by decide)]

theorem Within.spare : sparePct100 t = sparePct100 s := by
  have hp : t.sparePct = s.sparePct := h.fld _ Off.FTL_SPARE_CFG _ _ (by decide) (by decide)
  have hf : spareFormat t = spareFormat s := by simp [spareFormat, h.rotation, h.lun, hp, dataBlocks, h.ftl]
  have hl : spareLeft t = spareLeft s := by simp [spareLeft, h.rotation, h.lun, hp, dataBlocks, h.ftl]
  unfold sparePct100
  rw [hf, hl]

theorem Within.wear : wearPct100 t = wearPct100 s := by
  have hr : ratedPe t = ratedPe s := by
    unfold ratedPe
    rw [h.fld _ Off.HLTH_RATED_PE _ _ (by decide) (by decide), h.refPart]
  have he : eraseAvg t = eraseAvg s := by
    have h1 : eraseSum t = eraseSum s := by simp [eraseSum, h.rotation, h.lun]
    have h2 : (fun n => dataBlocks t (t.lun n)) = fun n => dataBlocks s (s.lun n) := by
      funext n
      simp [dataBlocks, h.lun, h.ftl]
    unfold eraseAvg
    rw [h1, h2, h.rotation]
  unfold wearPct100
  rw [hr, he]

theorem Within.temp : tempLimit t = tempLimit s := by
  simp [tempLimit, h.fld _ Off.HLTH_TEMP_CFG _ _ (by decide) (by decide)]

theorem Within.budget : bEff t = bEff s ∧ dirtyBytes t = dirtyBytes s := by
  have hb : ∀ off, off < 0x1000 → off ≠ Off.IRQ_FLAG → ∀ m l, t.fld Pg.HRV off m l = s.fld Pg.HRV off m l :=
    fun off ho hf m l => h.fld _ off _ _ ho hf
  have h1 := hb Off.HRV_BANK_CFG1 (by decide) (by decide)
  have h2 := hb Off.HRV_BANK_CFG2 (by decide) (by decide)
  have h3 := hb Off.HRV_BANK_CFG3 (by decide) (by decide)
  have ha : areaMib t = areaMib s := by simp [areaMib, h.ftl, h.rotation, h.lun]
  have hc : cUsed t = cUsed s := by
    unfold cUsed
    rw [h.hrv, h3]
  have ht : bankTerm t = bankTerm s := by
    unfold bankTerm
    simp only []
    rw [h.hrv, hc, h1, h1, h2, h2]
  refine ⟨?_, by simp [dirtyBytes, h.ftl]⟩
  unfold bEff dMaxMargin State.budgetBytes
  rw [ht, ha, h2, hb Off.HRV_HRV_BUDGET (by decide) (by decide)]

theorem Within.tsFifo (k : Nat) : (t.port k).tsFifo = (s.port k).tsFifo := by
  have := congrArg PortState.tsFifo (h.ports k); exact this

end

/-- A level-sourced condition reads the same before and after the end of a command. -/
theorem levelMask_within {x : Nat → Nat → Prop} {s t : State} (h : Within x s t) (page : Nat) : levelMask t page = levelMask s page := by
  have hk : keyCap t = keyCap s := by simp [keyCap, h.ftl]
  have hc : t.coreOn = s.coreOn := by
    unfold State.coreOn
    rw [h.pwr]
  have hu : (fun n => decide ((t.lun n).upkeep = 3)) = fun n => decide ((s.lun n).upkeep = 3) := by
    funext n
    rw [h.lun]
  have hw : (fun n => decide (2 ≤ (t.lun n).upkeep)) = fun n => decide (2 ≤ (s.lun n).upkeep) := by
    funext n
    rw [h.lun]
  unfold levelMask opTagsAll
  rw [hc, h.ops, h.streamCount, hk, h.keyTotal, h.rotation, hu, hw, h.gmap.1, h.gmap.2, h.spare, h.wear, h.temp,
    h.budget.1, h.budget.2, h.ftl, h.hrv, h.acd, h.hub, h.bus, h.tsFifo, h.tenLevels]

/-! ## The end of a command -/

theorem bit_and (v m : Word) (n : Nat) : (v &&& m).bit n = (v.bit n && m.bit n) := by simp [Word.bit]

theorem settled_refreshLevel (s : State) (page : Nat) : Settled s (refreshLevel s page) := by
  have hl : ∀ (s : State) (l : Store Word), Settled s { s with levels := l } :=
    fun s l => within_of_parts rfl rfl rfl rfl rfl
  unfold refreshLevel
  simp only []
  split
  · exact Within.refl s
  · have h1 := hl s (storePut s.levels page 0 (levelMask s page))
    generalize hs : ({ s with levels := storePut s.levels page 0 (levelMask s page) } : State) = s1 at h1 ⊢
    have h2 : Settled s (raise s1 page (levelMask s page &&& storeLook s.levels page 0)) := by
      refine h1.trans (within_raise _ _ _ fun n hn => .inr ?_)
      rw [bit_and, Bool.and_eq_true] at hn
      exact hn.1
    split
    · exact h2
    · refine (h2.trans (within_raise _ page (levelMask s page &&& ~~~ storeLook s.levels page 0) fun n hn => .inr ?_)).trans
        ((delivered_setFlags _ _ _).mono fun _ _ h => .inl h)
      rw [bit_and, Bool.and_eq_true] at hn
      exact hn.1

/-- Bringing level flags up to date, page after page, stays within what the conditions of the start allow. -/
theorem settled_refreshAll (l : List Nat) (s t : State) (h : Settled s t) : Settled s (l.foldl refreshLevel t) := by
  induction l generalizing t with
  | nil => exact h
  | cons p l ih =>
    refine ih _ (h.trans ((settled_refreshLevel t p).mono fun q n hq => ?_))
    rwa [levelMask_within h] at hq

/-- The end of a command touches only what `Settled` names. -/
theorem settled_finish (s : State) : Settled s (finish s) :=
  settled_refreshAll _ _ _ (within_creditAll s)

/-- A command that is carried out answers a next state, settled from what it did. -/
theorem does_done {c : Instr} {s u : State} (h : exec c s = done u) : Does c s u := ⟨finish u, h, settled_finish u⟩

end Sys2Proof.Machine
end

