-- ==== Sys2Proof/Laws/Congr.lean ====
section
/-! SUPPORT. Laws/Congr.lean: an update made before deliveries or after them leaves the same machine up to `Within`, so that
the flags a meaning raises on its way can be gathered at its end. -/

namespace Sys2Proof.Machine

variable {x : Nat → Nat → Prop} {s t : State}

theorem Within.onSec (h : Within x s t) (f : SecState → SecState) : Within x (Machine.onSec s f) (Machine.onSec t f) := by
  refine ⟨?_, h.regs, h.flags, h.fresh, h.ctrs, h.ports, h.tens⟩
  have e : ∀ s : State, coreView (Machine.onSec s f) = { coreView s with sec := f s.sec } := fun _ => rfl
  rw [e, e, h.core, h.sec]

theorem Within.onFt (h : Within x s t) (f : FtState → FtState) : Within x (Machine.onFt s f) (Machine.onFt t f) := by
  refine ⟨?_, h.regs, h.flags, h.fresh, h.ctrs, h.ports, h.tens⟩
  have e : ∀ s : State, coreView (Machine.onFt s f) = { coreView s with ft := f s.ft } := fun _ => rfl
  rw [e, e, h.core, h.ft]

theorem Within.onClk (h : Within x s t) (f : ClkState → ClkState) : Within x (Machine.onClk s f) (Machine.onClk t f) := by
  refine ⟨?_, h.regs, h.flags, h.fresh, h.ctrs, h.ports, h.tens⟩
  have e : ∀ s : State, coreView (Machine.onClk s f) = { coreView s with clk := f s.clk } := fun _ => rfl
  rw [e, e, h.core, h.clk]

theorem Within.onTat (h : Within x s t) (f : TatState → TatState) : Within x (Machine.onTat s f) (Machine.onTat t f) := by
  refine ⟨?_, h.regs, h.flags, h.fresh, h.ctrs, h.ports, h.tens⟩
  have e : ∀ s : State, coreView (Machine.onTat s f) = { coreView s with tat := f s.tat } := fun _ => rfl
  rw [e, e, h.core, h.tat]

theorem Within.onPwr (h : Within x s t) (f : PwrState → PwrState) : Within x (Machine.onPwr s f) (Machine.onPwr t f) := by
  refine ⟨?_, h.regs, h.flags, h.fresh, h.ctrs, h.ports, h.tens⟩
  have e : ∀ s : State, coreView (Machine.onPwr s f) = { coreView s with pwr := f s.pwr } := fun _ => rfl
  rw [e, e, h.core, h.pwr]

theorem Within.onHub (h : Within x s t) (f : HubState → HubState) : Within x (Machine.onHub s f) (Machine.onHub t f) := by
  refine ⟨?_, h.regs, h.flags, h.fresh, h.ctrs, h.ports, h.tens⟩
  have e : ∀ s : State, coreView (Machine.onHub s f) = { coreView s with hub := f s.hub } := fun _ => rfl
  rw [e, e, h.core, h.hub]

theorem Within.onBus (h : Within x s t) (f : BusState → BusState) : Within x (Machine.onBus s f) (Machine.onBus t f) := by
  refine ⟨?_, h.regs, h.flags, h.fresh, h.ctrs, h.ports, h.tens⟩
  have e : ∀ s : State, coreView (Machine.onBus s f) = { coreView s with bus := f s.bus } := fun _ => rfl
  rw [e, e, h.core, h.bus]

theorem Within.onAqe (h : Within x s t) (f : AqeState → AqeState) : Within x (Machine.onAqe s f) (Machine.onAqe t f) := by
  refine ⟨?_, h.regs, h.flags, h.fresh, h.ctrs, h.ports, h.tens⟩
  have e : ∀ s : State, coreView (Machine.onAqe s f) = { coreView s with aqe := f s.aqe } := fun _ => rfl
  rw [e, e, h.core, h.aqe]

theorem Within.onAcd (h : Within x s t) (f : AcdState → AcdState) : Within x (Machine.onAcd s f) (Machine.onAcd t f) := by
  refine ⟨?_, h.regs, h.flags, h.fresh, h.ctrs, h.ports, h.tens⟩
  have e : ∀ s : State, coreView (Machine.onAcd s f) = { coreView s with acd := f s.acd } := fun _ => rfl
  rw [e, e, h.core, h.acd]

theorem Within.onHrv (h : Within x s t) (f : HrvState → HrvState) : Within x (Machine.onHrv s f) (Machine.onHrv t f) := by
  refine ⟨?_, h.regs, h.flags, h.fresh, h.ctrs, h.ports, h.tens⟩
  have e : ∀ s : State, coreView (Machine.onHrv s f) = { coreView s with hrv := f s.hrv } := fun _ => rfl
  rw [e, e, h.core, h.hrv]

theorem Within.onHealth (h : Within x s t) (f : HealthState → HealthState) :
    Within x (Machine.onHealth s f) (Machine.onHealth t f) := by
  refine ⟨?_, h.regs, h.flags, h.fresh, h.ctrs, h.ports, h.tens⟩
  have e : ∀ s : State, coreView (Machine.onHealth s f) = { coreView s with ftl := { s.ftl with health := f s.ftl.health } } :=
    fun _ => rfl
  rw [e, e, h.core, h.ftl]

theorem Within.setReg (h : Within x s t) (page off : Nat) (w : Word) (ho : addr page off % 0x1000 ≠ Off.IRQ_FLAG) :
    Within x (Machine.setReg s page off w) (Machine.setReg t page off w) := by
  have flag : ∀ (s : State) (p n : Nat), (Machine.setReg s page off w).bit p Off.IRQ_FLAG n = s.bit p Off.IRQ_FLAG n := by
    intro s p n
    have hne : addr p Off.IRQ_FLAG ≠ addr page off := by
      intro he
      rw [← he] at ho
      simp only [addr, Off.IRQ_FLAG] at ho
      omega
    simp [State.bit, reg_setReg_ne s w hne]
  refine ⟨h.core, fun a ha => ?_, fun p n hb => ?_, fun p n hb => ?_, h.ctrs, h.ports, h.tens⟩
  · by_cases he : a = addr page off
    · subst he
      simp [Machine.setReg]
    · simp [Machine.setReg, storeLook_put_ne _ he, h.regs a ha]
  · rw [flag] at hb ⊢
    exact h.flags p n hb
  · rw [flag] at hb ⊢
    exact h.fresh p n hb

theorem Within.raise (h : Within x s t) (page : Nat) (m : Word) :
    Within x (Machine.raise s page m) (Machine.raise t page m) := by
  have flag : ∀ (s : State) (p n : Nat), (Machine.raise s page m).bit p Off.IRQ_FLAG n =
      (s.bit p Off.IRQ_FLAG n || (decide (p = page) && m.bit n)) := by
    intro s p n
    by_cases hp : p = page
    · subst hp
      simp [State.bit, Machine.raise, bit_or]
    · have hne : addr p Off.IRQ_FLAG ≠ addr page Off.IRQ_FLAG := by unfold addr; omega
      simp [State.bit, Machine.raise, reg_setReg_ne s _ hne, hp]
  refine ⟨h.core, fun a ha => ?_, fun p n hb => ?_, fun p n hb => ?_, h.ctrs, h.ports, h.tens⟩
  · have hne : a ≠ addr page Off.IRQ_FLAG := by
      rintro rfl
      simp only [addr, Off.IRQ_FLAG] at ha
      omega
    simp [Machine.raise, Machine.setReg, storeLook_put_ne _ hne, h.regs a ha]
  · rw [flag] at hb ⊢
    simp only [Bool.or_eq_true] at hb ⊢
    exact hb.imp_left (h.flags p n)
  · rw [flag] at hb ⊢
    simp only [Bool.or_eq_true] at hb ⊢
    rcases hb with hb | hb
    · exact (h.fresh p n hb).imp_left .inl
    · exact .inl (.inr hb)

theorem Within.bumpBy (h : Within x s t) (page off n : Nat) :
    Within x (Machine.bumpBy s page off n) (Machine.bumpBy t page off n) := by
  refine ⟨h.core, h.regs, h.flags, h.fresh, fun a ha => ?_, h.ports, h.tens⟩
  by_cases he : a = addr page off
  · subst he
    have hc : storeLook t.ctrs (addr page off) 0 = storeLook s.ctrs (addr page off) 0 := h.ctrs _ ha
    simp [Machine.bumpBy, setCtr, State.ctr, hc]
  · simp [Machine.bumpBy, setCtr, storeLook_put_ne _ he, h.ctrs a ha]

theorem Within.bump (h : Within x s t) (page off : Nat) :
    Within x (Machine.bump s page off) (Machine.bump t page off) := h.bumpBy page off 1

/-- A hardware set of flags after deliveries: gathered with those before it. -/
theorem Within.setFlags (h : Within DropFlag s t) (page : Nat) (m : Word) :
    Delivered (Machine.raise s page m) (Machine.setFlags t page m) :=
  (h.raise page m).trans (delivered_setFlags t page m)

/-- What was delivered on the way is settled at the end. -/
theorem settled_of_delivered {u v : State} (h : Delivered u v) : Settled u (finish v) :=
  (h.mono fun _ _ h => .inl h).trans ((settled_finish v).mono fun p n hn => by rwa [levelMask_within h] at hn)

end Sys2Proof.Machine
end

