-- ==== Sys2Proof/Laws/State.lean ====
section
/-! SUPPORT. Laws/State.lean: each named update changes one field of the state and no other. -/

namespace Sys2Proof.Machine

/-! `setReg` changes `regs`. -/

@[simp] theorem setReg_ctrs (s : State) (page off : Nat) (w : Word) : (setReg s page off w).ctrs = s.ctrs := rfl
@[simp] theorem setReg_shadows (s : State) (page off : Nat) (w : Word) : (setReg s page off w).shadows = s.shadows := rfl
@[simp] theorem setReg_inReset (s : State) (page off : Nat) (w : Word) : (setReg s page off w).inReset = s.inReset := rfl
@[simp] theorem setReg_holdoffs (s : State) (page off : Nat) (w : Word) : (setReg s page off w).holdoffs = s.holdoffs := rfl
@[simp] theorem setReg_levels (s : State) (page off : Nat) (w : Word) : (setReg s page off w).levels = s.levels := rfl
@[simp] theorem setReg_irq0 (s : State) (page off : Nat) (w : Word) : (setReg s page off w).irq0 = s.irq0 := rfl
@[simp] theorem setReg_irq1 (s : State) (page off : Nat) (w : Word) : (setReg s page off w).irq1 = s.irq1 := rfl
@[simp] theorem setReg_results (s : State) (page off : Nat) (w : Word) : (setReg s page off w).results = s.results := rfl
@[simp] theorem setReg_sec (s : State) (page off : Nat) (w : Word) : (setReg s page off w).sec = s.sec := rfl
@[simp] theorem setReg_clk (s : State) (page off : Nat) (w : Word) : (setReg s page off w).clk = s.clk := rfl
@[simp] theorem setReg_ft (s : State) (page off : Nat) (w : Word) : (setReg s page off w).ft = s.ft := rfl
@[simp] theorem setReg_tat (s : State) (page off : Nat) (w : Word) : (setReg s page off w).tat = s.tat := rfl
@[simp] theorem setReg_pwr (s : State) (page off : Nat) (w : Word) : (setReg s page off w).pwr = s.pwr := rfl
@[simp] theorem setReg_evf (s : State) (page off : Nat) (w : Word) : (setReg s page off w).evf = s.evf := rfl
@[simp] theorem setReg_ports (s : State) (page off : Nat) (w : Word) : (setReg s page off w).ports = s.ports := rfl
@[simp] theorem setReg_snap (s : State) (page off : Nat) (w : Word) : (setReg s page off w).snap = s.snap := rfl
@[simp] theorem setReg_fratra (s : State) (page off : Nat) (w : Word) : (setReg s page off w).fratra = s.fratra := rfl
@[simp] theorem setReg_ftl (s : State) (page off : Nat) (w : Word) : (setReg s page off w).ftl = s.ftl := rfl
@[simp] theorem setReg_hrv (s : State) (page off : Nat) (w : Word) : (setReg s page off w).hrv = s.hrv := rfl
@[simp] theorem setReg_acd (s : State) (page off : Nat) (w : Word) : (setReg s page off w).acd = s.acd := rfl
@[simp] theorem setReg_hub (s : State) (page off : Nat) (w : Word) : (setReg s page off w).hub = s.hub := rfl
@[simp] theorem setReg_bus (s : State) (page off : Nat) (w : Word) : (setReg s page off w).bus = s.bus := rfl
@[simp] theorem setReg_aqe (s : State) (page off : Nat) (w : Word) : (setReg s page off w).aqe = s.aqe := rfl
@[simp] theorem setReg_usb (s : State) (page off : Nat) (w : Word) : (setReg s page off w).usb = s.usb := rfl
@[simp] theorem setReg_freeCtr (s : State) (page off : Nat) (w : Word) : (setReg s page off w).freeCtr = s.freeCtr := rfl
@[simp] theorem setReg_pending (s : State) (page off : Nat) (w : Word) : (setReg s page off w).pending = s.pending := rfl

/-! `setCtr` changes `ctrs`. -/

@[simp] theorem setCtr_regs (s : State) (page off v : Nat) : (setCtr s page off v).regs = s.regs := rfl
@[simp] theorem setCtr_shadows (s : State) (page off v : Nat) : (setCtr s page off v).shadows = s.shadows := rfl
@[simp] theorem setCtr_inReset (s : State) (page off v : Nat) : (setCtr s page off v).inReset = s.inReset := rfl
@[simp] theorem setCtr_holdoffs (s : State) (page off v : Nat) : (setCtr s page off v).holdoffs = s.holdoffs := rfl
@[simp] theorem setCtr_levels (s : State) (page off v : Nat) : (setCtr s page off v).levels = s.levels := rfl
@[simp] theorem setCtr_irq0 (s : State) (page off v : Nat) : (setCtr s page off v).irq0 = s.irq0 := rfl
@[simp] theorem setCtr_irq1 (s : State) (page off v : Nat) : (setCtr s page off v).irq1 = s.irq1 := rfl
@[simp] theorem setCtr_results (s : State) (page off v : Nat) : (setCtr s page off v).results = s.results := rfl
@[simp] theorem setCtr_sec (s : State) (page off v : Nat) : (setCtr s page off v).sec = s.sec := rfl
@[simp] theorem setCtr_clk (s : State) (page off v : Nat) : (setCtr s page off v).clk = s.clk := rfl
@[simp] theorem setCtr_ft (s : State) (page off v : Nat) : (setCtr s page off v).ft = s.ft := rfl
@[simp] theorem setCtr_tat (s : State) (page off v : Nat) : (setCtr s page off v).tat = s.tat := rfl
@[simp] theorem setCtr_pwr (s : State) (page off v : Nat) : (setCtr s page off v).pwr = s.pwr := rfl
@[simp] theorem setCtr_evf (s : State) (page off v : Nat) : (setCtr s page off v).evf = s.evf := rfl
@[simp] theorem setCtr_ports (s : State) (page off v : Nat) : (setCtr s page off v).ports = s.ports := rfl
@[simp] theorem setCtr_snap (s : State) (page off v : Nat) : (setCtr s page off v).snap = s.snap := rfl
@[simp] theorem setCtr_fratra (s : State) (page off v : Nat) : (setCtr s page off v).fratra = s.fratra := rfl
@[simp] theorem setCtr_ftl (s : State) (page off v : Nat) : (setCtr s page off v).ftl = s.ftl := rfl
@[simp] theorem setCtr_hrv (s : State) (page off v : Nat) : (setCtr s page off v).hrv = s.hrv := rfl
@[simp] theorem setCtr_acd (s : State) (page off v : Nat) : (setCtr s page off v).acd = s.acd := rfl
@[simp] theorem setCtr_hub (s : State) (page off v : Nat) : (setCtr s page off v).hub = s.hub := rfl
@[simp] theorem setCtr_bus (s : State) (page off v : Nat) : (setCtr s page off v).bus = s.bus := rfl
@[simp] theorem setCtr_aqe (s : State) (page off v : Nat) : (setCtr s page off v).aqe = s.aqe := rfl
@[simp] theorem setCtr_usb (s : State) (page off v : Nat) : (setCtr s page off v).usb = s.usb := rfl
@[simp] theorem setCtr_freeCtr (s : State) (page off v : Nat) : (setCtr s page off v).freeCtr = s.freeCtr := rfl
@[simp] theorem setCtr_pending (s : State) (page off v : Nat) : (setCtr s page off v).pending = s.pending := rfl

/-! `setShadow` changes `shadows`. -/

@[simp] theorem setShadow_regs (s : State) (p : Path) (page off : Nat) (w : Word) : (setShadow s p page off w).regs = s.regs := rfl
@[simp] theorem setShadow_ctrs (s : State) (p : Path) (page off : Nat) (w : Word) : (setShadow s p page off w).ctrs = s.ctrs := rfl
@[simp] theorem setShadow_inReset (s : State) (p : Path) (page off : Nat) (w : Word) : (setShadow s p page off w).inReset = s.inReset := rfl
@[simp] theorem setShadow_holdoffs (s : State) (p : Path) (page off : Nat) (w : Word) : (setShadow s p page off w).holdoffs = s.holdoffs := rfl
@[simp] theorem setShadow_levels (s : State) (p : Path) (page off : Nat) (w : Word) : (setShadow s p page off w).levels = s.levels := rfl
@[simp] theorem setShadow_irq0 (s : State) (p : Path) (page off : Nat) (w : Word) : (setShadow s p page off w).irq0 = s.irq0 := rfl
@[simp] theorem setShadow_irq1 (s : State) (p : Path) (page off : Nat) (w : Word) : (setShadow s p page off w).irq1 = s.irq1 := rfl
@[simp] theorem setShadow_results (s : State) (p : Path) (page off : Nat) (w : Word) : (setShadow s p page off w).results = s.results := rfl
@[simp] theorem setShadow_sec (s : State) (p : Path) (page off : Nat) (w : Word) : (setShadow s p page off w).sec = s.sec := rfl
@[simp] theorem setShadow_clk (s : State) (p : Path) (page off : Nat) (w : Word) : (setShadow s p page off w).clk = s.clk := rfl
@[simp] theorem setShadow_ft (s : State) (p : Path) (page off : Nat) (w : Word) : (setShadow s p page off w).ft = s.ft := rfl
@[simp] theorem setShadow_tat (s : State) (p : Path) (page off : Nat) (w : Word) : (setShadow s p page off w).tat = s.tat := rfl
@[simp] theorem setShadow_pwr (s : State) (p : Path) (page off : Nat) (w : Word) : (setShadow s p page off w).pwr = s.pwr := rfl
@[simp] theorem setShadow_evf (s : State) (p : Path) (page off : Nat) (w : Word) : (setShadow s p page off w).evf = s.evf := rfl
@[simp] theorem setShadow_ports (s : State) (p : Path) (page off : Nat) (w : Word) : (setShadow s p page off w).ports = s.ports := rfl
@[simp] theorem setShadow_snap (s : State) (p : Path) (page off : Nat) (w : Word) : (setShadow s p page off w).snap = s.snap := rfl
@[simp] theorem setShadow_fratra (s : State) (p : Path) (page off : Nat) (w : Word) : (setShadow s p page off w).fratra = s.fratra := rfl
@[simp] theorem setShadow_ftl (s : State) (p : Path) (page off : Nat) (w : Word) : (setShadow s p page off w).ftl = s.ftl := rfl
@[simp] theorem setShadow_hrv (s : State) (p : Path) (page off : Nat) (w : Word) : (setShadow s p page off w).hrv = s.hrv := rfl
@[simp] theorem setShadow_acd (s : State) (p : Path) (page off : Nat) (w : Word) : (setShadow s p page off w).acd = s.acd := rfl
@[simp] theorem setShadow_hub (s : State) (p : Path) (page off : Nat) (w : Word) : (setShadow s p page off w).hub = s.hub := rfl
@[simp] theorem setShadow_bus (s : State) (p : Path) (page off : Nat) (w : Word) : (setShadow s p page off w).bus = s.bus := rfl
@[simp] theorem setShadow_aqe (s : State) (p : Path) (page off : Nat) (w : Word) : (setShadow s p page off w).aqe = s.aqe := rfl
@[simp] theorem setShadow_usb (s : State) (p : Path) (page off : Nat) (w : Word) : (setShadow s p page off w).usb = s.usb := rfl
@[simp] theorem setShadow_freeCtr (s : State) (p : Path) (page off : Nat) (w : Word) : (setShadow s p page off w).freeCtr = s.freeCtr := rfl
@[simp] theorem setShadow_pending (s : State) (p : Path) (page off : Nat) (w : Word) : (setShadow s p page off w).pending = s.pending := rfl

/-! `answerAcc` changes `results`. -/

@[simp] theorem answerAcc_regs (s : State) (p : Path) (code : Nat) (w : Word) : (answerAcc s p code w).regs = s.regs := rfl
@[simp] theorem answerAcc_ctrs (s : State) (p : Path) (code : Nat) (w : Word) : (answerAcc s p code w).ctrs = s.ctrs := rfl
@[simp] theorem answerAcc_shadows (s : State) (p : Path) (code : Nat) (w : Word) : (answerAcc s p code w).shadows = s.shadows := rfl
@[simp] theorem answerAcc_inReset (s : State) (p : Path) (code : Nat) (w : Word) : (answerAcc s p code w).inReset = s.inReset := rfl
@[simp] theorem answerAcc_holdoffs (s : State) (p : Path) (code : Nat) (w : Word) : (answerAcc s p code w).holdoffs = s.holdoffs := rfl
@[simp] theorem answerAcc_levels (s : State) (p : Path) (code : Nat) (w : Word) : (answerAcc s p code w).levels = s.levels := rfl
@[simp] theorem answerAcc_irq0 (s : State) (p : Path) (code : Nat) (w : Word) : (answerAcc s p code w).irq0 = s.irq0 := rfl
@[simp] theorem answerAcc_irq1 (s : State) (p : Path) (code : Nat) (w : Word) : (answerAcc s p code w).irq1 = s.irq1 := rfl
@[simp] theorem answerAcc_sec (s : State) (p : Path) (code : Nat) (w : Word) : (answerAcc s p code w).sec = s.sec := rfl
@[simp] theorem answerAcc_clk (s : State) (p : Path) (code : Nat) (w : Word) : (answerAcc s p code w).clk = s.clk := rfl
@[simp] theorem answerAcc_ft (s : State) (p : Path) (code : Nat) (w : Word) : (answerAcc s p code w).ft = s.ft := rfl
@[simp] theorem answerAcc_tat (s : State) (p : Path) (code : Nat) (w : Word) : (answerAcc s p code w).tat = s.tat := rfl
@[simp] theorem answerAcc_pwr (s : State) (p : Path) (code : Nat) (w : Word) : (answerAcc s p code w).pwr = s.pwr := rfl
@[simp] theorem answerAcc_evf (s : State) (p : Path) (code : Nat) (w : Word) : (answerAcc s p code w).evf = s.evf := rfl
@[simp] theorem answerAcc_ports (s : State) (p : Path) (code : Nat) (w : Word) : (answerAcc s p code w).ports = s.ports := rfl
@[simp] theorem answerAcc_snap (s : State) (p : Path) (code : Nat) (w : Word) : (answerAcc s p code w).snap = s.snap := rfl
@[simp] theorem answerAcc_fratra (s : State) (p : Path) (code : Nat) (w : Word) : (answerAcc s p code w).fratra = s.fratra := rfl
@[simp] theorem answerAcc_ftl (s : State) (p : Path) (code : Nat) (w : Word) : (answerAcc s p code w).ftl = s.ftl := rfl
@[simp] theorem answerAcc_hrv (s : State) (p : Path) (code : Nat) (w : Word) : (answerAcc s p code w).hrv = s.hrv := rfl
@[simp] theorem answerAcc_acd (s : State) (p : Path) (code : Nat) (w : Word) : (answerAcc s p code w).acd = s.acd := rfl
@[simp] theorem answerAcc_hub (s : State) (p : Path) (code : Nat) (w : Word) : (answerAcc s p code w).hub = s.hub := rfl
@[simp] theorem answerAcc_bus (s : State) (p : Path) (code : Nat) (w : Word) : (answerAcc s p code w).bus = s.bus := rfl
@[simp] theorem answerAcc_aqe (s : State) (p : Path) (code : Nat) (w : Word) : (answerAcc s p code w).aqe = s.aqe := rfl
@[simp] theorem answerAcc_usb (s : State) (p : Path) (code : Nat) (w : Word) : (answerAcc s p code w).usb = s.usb := rfl
@[simp] theorem answerAcc_freeCtr (s : State) (p : Path) (code : Nat) (w : Word) : (answerAcc s p code w).freeCtr = s.freeCtr := rfl
@[simp] theorem answerAcc_pending (s : State) (p : Path) (code : Nat) (w : Word) : (answerAcc s p code w).pending = s.pending := rfl

/-! `setPort` changes `ports`. -/

@[simp] theorem setPort_regs (s : State) (k : Nat) (p : PortState) : (setPort s k p).regs = s.regs := rfl
@[simp] theorem setPort_ctrs (s : State) (k : Nat) (p : PortState) : (setPort s k p).ctrs = s.ctrs := rfl
@[simp] theorem setPort_shadows (s : State) (k : Nat) (p : PortState) : (setPort s k p).shadows = s.shadows := rfl
@[simp] theorem setPort_inReset (s : State) (k : Nat) (p : PortState) : (setPort s k p).inReset = s.inReset := rfl
@[simp] theorem setPort_holdoffs (s : State) (k : Nat) (p : PortState) : (setPort s k p).holdoffs = s.holdoffs := rfl
@[simp] theorem setPort_levels (s : State) (k : Nat) (p : PortState) : (setPort s k p).levels = s.levels := rfl
@[simp] theorem setPort_irq0 (s : State) (k : Nat) (p : PortState) : (setPort s k p).irq0 = s.irq0 := rfl
@[simp] theorem setPort_irq1 (s : State) (k : Nat) (p : PortState) : (setPort s k p).irq1 = s.irq1 := rfl
@[simp] theorem setPort_results (s : State) (k : Nat) (p : PortState) : (setPort s k p).results = s.results := rfl
@[simp] theorem setPort_sec (s : State) (k : Nat) (p : PortState) : (setPort s k p).sec = s.sec := rfl
@[simp] theorem setPort_clk (s : State) (k : Nat) (p : PortState) : (setPort s k p).clk = s.clk := rfl
@[simp] theorem setPort_ft (s : State) (k : Nat) (p : PortState) : (setPort s k p).ft = s.ft := rfl
@[simp] theorem setPort_tat (s : State) (k : Nat) (p : PortState) : (setPort s k p).tat = s.tat := rfl
@[simp] theorem setPort_pwr (s : State) (k : Nat) (p : PortState) : (setPort s k p).pwr = s.pwr := rfl
@[simp] theorem setPort_evf (s : State) (k : Nat) (p : PortState) : (setPort s k p).evf = s.evf := rfl
@[simp] theorem setPort_snap (s : State) (k : Nat) (p : PortState) : (setPort s k p).snap = s.snap := rfl
@[simp] theorem setPort_fratra (s : State) (k : Nat) (p : PortState) : (setPort s k p).fratra = s.fratra := rfl
@[simp] theorem setPort_ftl (s : State) (k : Nat) (p : PortState) : (setPort s k p).ftl = s.ftl := rfl
@[simp] theorem setPort_hrv (s : State) (k : Nat) (p : PortState) : (setPort s k p).hrv = s.hrv := rfl
@[simp] theorem setPort_acd (s : State) (k : Nat) (p : PortState) : (setPort s k p).acd = s.acd := rfl
@[simp] theorem setPort_hub (s : State) (k : Nat) (p : PortState) : (setPort s k p).hub = s.hub := rfl
@[simp] theorem setPort_bus (s : State) (k : Nat) (p : PortState) : (setPort s k p).bus = s.bus := rfl
@[simp] theorem setPort_aqe (s : State) (k : Nat) (p : PortState) : (setPort s k p).aqe = s.aqe := rfl
@[simp] theorem setPort_usb (s : State) (k : Nat) (p : PortState) : (setPort s k p).usb = s.usb := rfl
@[simp] theorem setPort_freeCtr (s : State) (k : Nat) (p : PortState) : (setPort s k p).freeCtr = s.freeCtr := rfl
@[simp] theorem setPort_pending (s : State) (k : Nat) (p : PortState) : (setPort s k p).pending = s.pending := rfl

/-! `setTen` changes `fratra`. -/

@[simp] theorem setTen_regs (s : State) (n : Nat) (t : Tenant) : (setTen s n t).regs = s.regs := rfl
@[simp] theorem setTen_ctrs (s : State) (n : Nat) (t : Tenant) : (setTen s n t).ctrs = s.ctrs := rfl
@[simp] theorem setTen_shadows (s : State) (n : Nat) (t : Tenant) : (setTen s n t).shadows = s.shadows := rfl
@[simp] theorem setTen_inReset (s : State) (n : Nat) (t : Tenant) : (setTen s n t).inReset = s.inReset := rfl
@[simp] theorem setTen_holdoffs (s : State) (n : Nat) (t : Tenant) : (setTen s n t).holdoffs = s.holdoffs := rfl
@[simp] theorem setTen_levels (s : State) (n : Nat) (t : Tenant) : (setTen s n t).levels = s.levels := rfl
@[simp] theorem setTen_irq0 (s : State) (n : Nat) (t : Tenant) : (setTen s n t).irq0 = s.irq0 := rfl
@[simp] theorem setTen_irq1 (s : State) (n : Nat) (t : Tenant) : (setTen s n t).irq1 = s.irq1 := rfl
@[simp] theorem setTen_results (s : State) (n : Nat) (t : Tenant) : (setTen s n t).results = s.results := rfl
@[simp] theorem setTen_sec (s : State) (n : Nat) (t : Tenant) : (setTen s n t).sec = s.sec := rfl
@[simp] theorem setTen_clk (s : State) (n : Nat) (t : Tenant) : (setTen s n t).clk = s.clk := rfl
@[simp] theorem setTen_ft (s : State) (n : Nat) (t : Tenant) : (setTen s n t).ft = s.ft := rfl
@[simp] theorem setTen_tat (s : State) (n : Nat) (t : Tenant) : (setTen s n t).tat = s.tat := rfl
@[simp] theorem setTen_pwr (s : State) (n : Nat) (t : Tenant) : (setTen s n t).pwr = s.pwr := rfl
@[simp] theorem setTen_evf (s : State) (n : Nat) (t : Tenant) : (setTen s n t).evf = s.evf := rfl
@[simp] theorem setTen_ports (s : State) (n : Nat) (t : Tenant) : (setTen s n t).ports = s.ports := rfl
@[simp] theorem setTen_snap (s : State) (n : Nat) (t : Tenant) : (setTen s n t).snap = s.snap := rfl
@[simp] theorem setTen_ftl (s : State) (n : Nat) (t : Tenant) : (setTen s n t).ftl = s.ftl := rfl
@[simp] theorem setTen_hrv (s : State) (n : Nat) (t : Tenant) : (setTen s n t).hrv = s.hrv := rfl
@[simp] theorem setTen_acd (s : State) (n : Nat) (t : Tenant) : (setTen s n t).acd = s.acd := rfl
@[simp] theorem setTen_hub (s : State) (n : Nat) (t : Tenant) : (setTen s n t).hub = s.hub := rfl
@[simp] theorem setTen_bus (s : State) (n : Nat) (t : Tenant) : (setTen s n t).bus = s.bus := rfl
@[simp] theorem setTen_aqe (s : State) (n : Nat) (t : Tenant) : (setTen s n t).aqe = s.aqe := rfl
@[simp] theorem setTen_usb (s : State) (n : Nat) (t : Tenant) : (setTen s n t).usb = s.usb := rfl
@[simp] theorem setTen_freeCtr (s : State) (n : Nat) (t : Tenant) : (setTen s n t).freeCtr = s.freeCtr := rfl
@[simp] theorem setTen_pending (s : State) (n : Nat) (t : Tenant) : (setTen s n t).pending = s.pending := rfl

/-! `setLun` changes `ftl`. -/

@[simp] theorem setLun_regs (s : State) (n : Nat) (l : Lun) : (setLun s n l).regs = s.regs := rfl
@[simp] theorem setLun_ctrs (s : State) (n : Nat) (l : Lun) : (setLun s n l).ctrs = s.ctrs := rfl
@[simp] theorem setLun_shadows (s : State) (n : Nat) (l : Lun) : (setLun s n l).shadows = s.shadows := rfl
@[simp] theorem setLun_inReset (s : State) (n : Nat) (l : Lun) : (setLun s n l).inReset = s.inReset := rfl
@[simp] theorem setLun_holdoffs (s : State) (n : Nat) (l : Lun) : (setLun s n l).holdoffs = s.holdoffs := rfl
@[simp] theorem setLun_levels (s : State) (n : Nat) (l : Lun) : (setLun s n l).levels = s.levels := rfl
@[simp] theorem setLun_irq0 (s : State) (n : Nat) (l : Lun) : (setLun s n l).irq0 = s.irq0 := rfl
@[simp] theorem setLun_irq1 (s : State) (n : Nat) (l : Lun) : (setLun s n l).irq1 = s.irq1 := rfl
@[simp] theorem setLun_results (s : State) (n : Nat) (l : Lun) : (setLun s n l).results = s.results := rfl
@[simp] theorem setLun_sec (s : State) (n : Nat) (l : Lun) : (setLun s n l).sec = s.sec := rfl
@[simp] theorem setLun_clk (s : State) (n : Nat) (l : Lun) : (setLun s n l).clk = s.clk := rfl
@[simp] theorem setLun_ft (s : State) (n : Nat) (l : Lun) : (setLun s n l).ft = s.ft := rfl
@[simp] theorem setLun_tat (s : State) (n : Nat) (l : Lun) : (setLun s n l).tat = s.tat := rfl
@[simp] theorem setLun_pwr (s : State) (n : Nat) (l : Lun) : (setLun s n l).pwr = s.pwr := rfl
@[simp] theorem setLun_evf (s : State) (n : Nat) (l : Lun) : (setLun s n l).evf = s.evf := rfl
@[simp] theorem setLun_ports (s : State) (n : Nat) (l : Lun) : (setLun s n l).ports = s.ports := rfl
@[simp] theorem setLun_snap (s : State) (n : Nat) (l : Lun) : (setLun s n l).snap = s.snap := rfl
@[simp] theorem setLun_fratra (s : State) (n : Nat) (l : Lun) : (setLun s n l).fratra = s.fratra := rfl
@[simp] theorem setLun_hrv (s : State) (n : Nat) (l : Lun) : (setLun s n l).hrv = s.hrv := rfl
@[simp] theorem setLun_acd (s : State) (n : Nat) (l : Lun) : (setLun s n l).acd = s.acd := rfl
@[simp] theorem setLun_hub (s : State) (n : Nat) (l : Lun) : (setLun s n l).hub = s.hub := rfl
@[simp] theorem setLun_bus (s : State) (n : Nat) (l : Lun) : (setLun s n l).bus = s.bus := rfl
@[simp] theorem setLun_aqe (s : State) (n : Nat) (l : Lun) : (setLun s n l).aqe = s.aqe := rfl
@[simp] theorem setLun_usb (s : State) (n : Nat) (l : Lun) : (setLun s n l).usb = s.usb := rfl
@[simp] theorem setLun_freeCtr (s : State) (n : Nat) (l : Lun) : (setLun s n l).freeCtr = s.freeCtr := rfl
@[simp] theorem setLun_pending (s : State) (n : Nat) (l : Lun) : (setLun s n l).pending = s.pending := rfl

/-! `setSheaf` changes `ftl`. -/

@[simp] theorem setSheaf_regs (s : State) (n : Nat) (h : Sheaf) : (setSheaf s n h).regs = s.regs := rfl
@[simp] theorem setSheaf_ctrs (s : State) (n : Nat) (h : Sheaf) : (setSheaf s n h).ctrs = s.ctrs := rfl
@[simp] theorem setSheaf_shadows (s : State) (n : Nat) (h : Sheaf) : (setSheaf s n h).shadows = s.shadows := rfl
@[simp] theorem setSheaf_inReset (s : State) (n : Nat) (h : Sheaf) : (setSheaf s n h).inReset = s.inReset := rfl
@[simp] theorem setSheaf_holdoffs (s : State) (n : Nat) (h : Sheaf) : (setSheaf s n h).holdoffs = s.holdoffs := rfl
@[simp] theorem setSheaf_levels (s : State) (n : Nat) (h : Sheaf) : (setSheaf s n h).levels = s.levels := rfl
@[simp] theorem setSheaf_irq0 (s : State) (n : Nat) (h : Sheaf) : (setSheaf s n h).irq0 = s.irq0 := rfl
@[simp] theorem setSheaf_irq1 (s : State) (n : Nat) (h : Sheaf) : (setSheaf s n h).irq1 = s.irq1 := rfl
@[simp] theorem setSheaf_results (s : State) (n : Nat) (h : Sheaf) : (setSheaf s n h).results = s.results := rfl
@[simp] theorem setSheaf_sec (s : State) (n : Nat) (h : Sheaf) : (setSheaf s n h).sec = s.sec := rfl
@[simp] theorem setSheaf_clk (s : State) (n : Nat) (h : Sheaf) : (setSheaf s n h).clk = s.clk := rfl
@[simp] theorem setSheaf_ft (s : State) (n : Nat) (h : Sheaf) : (setSheaf s n h).ft = s.ft := rfl
@[simp] theorem setSheaf_tat (s : State) (n : Nat) (h : Sheaf) : (setSheaf s n h).tat = s.tat := rfl
@[simp] theorem setSheaf_pwr (s : State) (n : Nat) (h : Sheaf) : (setSheaf s n h).pwr = s.pwr := rfl
@[simp] theorem setSheaf_evf (s : State) (n : Nat) (h : Sheaf) : (setSheaf s n h).evf = s.evf := rfl
@[simp] theorem setSheaf_ports (s : State) (n : Nat) (h : Sheaf) : (setSheaf s n h).ports = s.ports := rfl
@[simp] theorem setSheaf_snap (s : State) (n : Nat) (h : Sheaf) : (setSheaf s n h).snap = s.snap := rfl
@[simp] theorem setSheaf_fratra (s : State) (n : Nat) (h : Sheaf) : (setSheaf s n h).fratra = s.fratra := rfl
@[simp] theorem setSheaf_hrv (s : State) (n : Nat) (h : Sheaf) : (setSheaf s n h).hrv = s.hrv := rfl
@[simp] theorem setSheaf_acd (s : State) (n : Nat) (h : Sheaf) : (setSheaf s n h).acd = s.acd := rfl
@[simp] theorem setSheaf_hub (s : State) (n : Nat) (h : Sheaf) : (setSheaf s n h).hub = s.hub := rfl
@[simp] theorem setSheaf_bus (s : State) (n : Nat) (h : Sheaf) : (setSheaf s n h).bus = s.bus := rfl
@[simp] theorem setSheaf_aqe (s : State) (n : Nat) (h : Sheaf) : (setSheaf s n h).aqe = s.aqe := rfl
@[simp] theorem setSheaf_usb (s : State) (n : Nat) (h : Sheaf) : (setSheaf s n h).usb = s.usb := rfl
@[simp] theorem setSheaf_freeCtr (s : State) (n : Nat) (h : Sheaf) : (setSheaf s n h).freeCtr = s.freeCtr := rfl
@[simp] theorem setSheaf_pending (s : State) (n : Nat) (h : Sheaf) : (setSheaf s n h).pending = s.pending := rfl

/-! `onHub` changes `hub`. -/

@[simp] theorem onHub_regs (s : State) (f : HubState → HubState) : (onHub s f).regs = s.regs := rfl
@[simp] theorem onHub_ctrs (s : State) (f : HubState → HubState) : (onHub s f).ctrs = s.ctrs := rfl
@[simp] theorem onHub_shadows (s : State) (f : HubState → HubState) : (onHub s f).shadows = s.shadows := rfl
@[simp] theorem onHub_inReset (s : State) (f : HubState → HubState) : (onHub s f).inReset = s.inReset := rfl
@[simp] theorem onHub_holdoffs (s : State) (f : HubState → HubState) : (onHub s f).holdoffs = s.holdoffs := rfl
@[simp] theorem onHub_levels (s : State) (f : HubState → HubState) : (onHub s f).levels = s.levels := rfl
@[simp] theorem onHub_irq0 (s : State) (f : HubState → HubState) : (onHub s f).irq0 = s.irq0 := rfl
@[simp] theorem onHub_irq1 (s : State) (f : HubState → HubState) : (onHub s f).irq1 = s.irq1 := rfl
@[simp] theorem onHub_results (s : State) (f : HubState → HubState) : (onHub s f).results = s.results := rfl
@[simp] theorem onHub_sec (s : State) (f : HubState → HubState) : (onHub s f).sec = s.sec := rfl
@[simp] theorem onHub_clk (s : State) (f : HubState → HubState) : (onHub s f).clk = s.clk := rfl
@[simp] theorem onHub_ft (s : State) (f : HubState → HubState) : (onHub s f).ft = s.ft := rfl
@[simp] theorem onHub_tat (s : State) (f : HubState → HubState) : (onHub s f).tat = s.tat := rfl
@[simp] theorem onHub_pwr (s : State) (f : HubState → HubState) : (onHub s f).pwr = s.pwr := rfl
@[simp] theorem onHub_evf (s : State) (f : HubState → HubState) : (onHub s f).evf = s.evf := rfl
@[simp] theorem onHub_ports (s : State) (f : HubState → HubState) : (onHub s f).ports = s.ports := rfl
@[simp] theorem onHub_snap (s : State) (f : HubState → HubState) : (onHub s f).snap = s.snap := rfl
@[simp] theorem onHub_fratra (s : State) (f : HubState → HubState) : (onHub s f).fratra = s.fratra := rfl
@[simp] theorem onHub_ftl (s : State) (f : HubState → HubState) : (onHub s f).ftl = s.ftl := rfl
@[simp] theorem onHub_hrv (s : State) (f : HubState → HubState) : (onHub s f).hrv = s.hrv := rfl
@[simp] theorem onHub_acd (s : State) (f : HubState → HubState) : (onHub s f).acd = s.acd := rfl
@[simp] theorem onHub_bus (s : State) (f : HubState → HubState) : (onHub s f).bus = s.bus := rfl
@[simp] theorem onHub_aqe (s : State) (f : HubState → HubState) : (onHub s f).aqe = s.aqe := rfl
@[simp] theorem onHub_usb (s : State) (f : HubState → HubState) : (onHub s f).usb = s.usb := rfl
@[simp] theorem onHub_freeCtr (s : State) (f : HubState → HubState) : (onHub s f).freeCtr = s.freeCtr := rfl
@[simp] theorem onHub_pending (s : State) (f : HubState → HubState) : (onHub s f).pending = s.pending := rfl
@[simp] theorem onHub_hub (s : State) (f : HubState → HubState) : (onHub s f).hub = f s.hub := rfl

/-! `onAcd` changes `acd`. -/

@[simp] theorem onAcd_regs (s : State) (f : AcdState → AcdState) : (onAcd s f).regs = s.regs := rfl
@[simp] theorem onAcd_ctrs (s : State) (f : AcdState → AcdState) : (onAcd s f).ctrs = s.ctrs := rfl
@[simp] theorem onAcd_shadows (s : State) (f : AcdState → AcdState) : (onAcd s f).shadows = s.shadows := rfl
@[simp] theorem onAcd_inReset (s : State) (f : AcdState → AcdState) : (onAcd s f).inReset = s.inReset := rfl
@[simp] theorem onAcd_holdoffs (s : State) (f : AcdState → AcdState) : (onAcd s f).holdoffs = s.holdoffs := rfl
@[simp] theorem onAcd_levels (s : State) (f : AcdState → AcdState) : (onAcd s f).levels = s.levels := rfl
@[simp] theorem onAcd_irq0 (s : State) (f : AcdState → AcdState) : (onAcd s f).irq0 = s.irq0 := rfl
@[simp] theorem onAcd_irq1 (s : State) (f : AcdState → AcdState) : (onAcd s f).irq1 = s.irq1 := rfl
@[simp] theorem onAcd_results (s : State) (f : AcdState → AcdState) : (onAcd s f).results = s.results := rfl
@[simp] theorem onAcd_sec (s : State) (f : AcdState → AcdState) : (onAcd s f).sec = s.sec := rfl
@[simp] theorem onAcd_clk (s : State) (f : AcdState → AcdState) : (onAcd s f).clk = s.clk := rfl
@[simp] theorem onAcd_ft (s : State) (f : AcdState → AcdState) : (onAcd s f).ft = s.ft := rfl
@[simp] theorem onAcd_tat (s : State) (f : AcdState → AcdState) : (onAcd s f).tat = s.tat := rfl
@[simp] theorem onAcd_pwr (s : State) (f : AcdState → AcdState) : (onAcd s f).pwr = s.pwr := rfl
@[simp] theorem onAcd_evf (s : State) (f : AcdState → AcdState) : (onAcd s f).evf = s.evf := rfl
@[simp] theorem onAcd_ports (s : State) (f : AcdState → AcdState) : (onAcd s f).ports = s.ports := rfl
@[simp] theorem onAcd_snap (s : State) (f : AcdState → AcdState) : (onAcd s f).snap = s.snap := rfl
@[simp] theorem onAcd_fratra (s : State) (f : AcdState → AcdState) : (onAcd s f).fratra = s.fratra := rfl
@[simp] theorem onAcd_ftl (s : State) (f : AcdState → AcdState) : (onAcd s f).ftl = s.ftl := rfl
@[simp] theorem onAcd_hrv (s : State) (f : AcdState → AcdState) : (onAcd s f).hrv = s.hrv := rfl
@[simp] theorem onAcd_hub (s : State) (f : AcdState → AcdState) : (onAcd s f).hub = s.hub := rfl
@[simp] theorem onAcd_bus (s : State) (f : AcdState → AcdState) : (onAcd s f).bus = s.bus := rfl
@[simp] theorem onAcd_aqe (s : State) (f : AcdState → AcdState) : (onAcd s f).aqe = s.aqe := rfl
@[simp] theorem onAcd_usb (s : State) (f : AcdState → AcdState) : (onAcd s f).usb = s.usb := rfl
@[simp] theorem onAcd_freeCtr (s : State) (f : AcdState → AcdState) : (onAcd s f).freeCtr = s.freeCtr := rfl
@[simp] theorem onAcd_pending (s : State) (f : AcdState → AcdState) : (onAcd s f).pending = s.pending := rfl
@[simp] theorem onAcd_acd (s : State) (f : AcdState → AcdState) : (onAcd s f).acd = f s.acd := rfl

/-! `onUsb` changes `usb`. -/

@[simp] theorem onUsb_regs (s : State) (f : UsbState → UsbState) : (onUsb s f).regs = s.regs := rfl
@[simp] theorem onUsb_ctrs (s : State) (f : UsbState → UsbState) : (onUsb s f).ctrs = s.ctrs := rfl
@[simp] theorem onUsb_shadows (s : State) (f : UsbState → UsbState) : (onUsb s f).shadows = s.shadows := rfl
@[simp] theorem onUsb_inReset (s : State) (f : UsbState → UsbState) : (onUsb s f).inReset = s.inReset := rfl
@[simp] theorem onUsb_holdoffs (s : State) (f : UsbState → UsbState) : (onUsb s f).holdoffs = s.holdoffs := rfl
@[simp] theorem onUsb_levels (s : State) (f : UsbState → UsbState) : (onUsb s f).levels = s.levels := rfl
@[simp] theorem onUsb_irq0 (s : State) (f : UsbState → UsbState) : (onUsb s f).irq0 = s.irq0 := rfl
@[simp] theorem onUsb_irq1 (s : State) (f : UsbState → UsbState) : (onUsb s f).irq1 = s.irq1 := rfl
@[simp] theorem onUsb_results (s : State) (f : UsbState → UsbState) : (onUsb s f).results = s.results := rfl
@[simp] theorem onUsb_sec (s : State) (f : UsbState → UsbState) : (onUsb s f).sec = s.sec := rfl
@[simp] theorem onUsb_clk (s : State) (f : UsbState → UsbState) : (onUsb s f).clk = s.clk := rfl
@[simp] theorem onUsb_ft (s : State) (f : UsbState → UsbState) : (onUsb s f).ft = s.ft := rfl
@[simp] theorem onUsb_tat (s : State) (f : UsbState → UsbState) : (onUsb s f).tat = s.tat := rfl
@[simp] theorem onUsb_pwr (s : State) (f : UsbState → UsbState) : (onUsb s f).pwr = s.pwr := rfl
@[simp] theorem onUsb_evf (s : State) (f : UsbState → UsbState) : (onUsb s f).evf = s.evf := rfl
@[simp] theorem onUsb_ports (s : State) (f : UsbState → UsbState) : (onUsb s f).ports = s.ports := rfl
@[simp] theorem onUsb_snap (s : State) (f : UsbState → UsbState) : (onUsb s f).snap = s.snap := rfl
@[simp] theorem onUsb_fratra (s : State) (f : UsbState → UsbState) : (onUsb s f).fratra = s.fratra := rfl
@[simp] theorem onUsb_ftl (s : State) (f : UsbState → UsbState) : (onUsb s f).ftl = s.ftl := rfl
@[simp] theorem onUsb_hrv (s : State) (f : UsbState → UsbState) : (onUsb s f).hrv = s.hrv := rfl
@[simp] theorem onUsb_acd (s : State) (f : UsbState → UsbState) : (onUsb s f).acd = s.acd := rfl
@[simp] theorem onUsb_hub (s : State) (f : UsbState → UsbState) : (onUsb s f).hub = s.hub := rfl
@[simp] theorem onUsb_bus (s : State) (f : UsbState → UsbState) : (onUsb s f).bus = s.bus := rfl
@[simp] theorem onUsb_aqe (s : State) (f : UsbState → UsbState) : (onUsb s f).aqe = s.aqe := rfl
@[simp] theorem onUsb_freeCtr (s : State) (f : UsbState → UsbState) : (onUsb s f).freeCtr = s.freeCtr := rfl
@[simp] theorem onUsb_pending (s : State) (f : UsbState → UsbState) : (onUsb s f).pending = s.pending := rfl
@[simp] theorem onUsb_usb (s : State) (f : UsbState → UsbState) : (onUsb s f).usb = f s.usb := rfl

/-! `onHealth` changes `ftl`. -/

@[simp] theorem onHealth_regs (s : State) (f : HealthState → HealthState) : (onHealth s f).regs = s.regs := rfl
@[simp] theorem onHealth_ctrs (s : State) (f : HealthState → HealthState) : (onHealth s f).ctrs = s.ctrs := rfl
@[simp] theorem onHealth_shadows (s : State) (f : HealthState → HealthState) : (onHealth s f).shadows = s.shadows := rfl
@[simp] theorem onHealth_inReset (s : State) (f : HealthState → HealthState) : (onHealth s f).inReset = s.inReset := rfl
@[simp] theorem onHealth_holdoffs (s : State) (f : HealthState → HealthState) : (onHealth s f).holdoffs = s.holdoffs := rfl
@[simp] theorem onHealth_levels (s : State) (f : HealthState → HealthState) : (onHealth s f).levels = s.levels := rfl
@[simp] theorem onHealth_irq0 (s : State) (f : HealthState → HealthState) : (onHealth s f).irq0 = s.irq0 := rfl
@[simp] theorem onHealth_irq1 (s : State) (f : HealthState → HealthState) : (onHealth s f).irq1 = s.irq1 := rfl
@[simp] theorem onHealth_results (s : State) (f : HealthState → HealthState) : (onHealth s f).results = s.results := rfl
@[simp] theorem onHealth_sec (s : State) (f : HealthState → HealthState) : (onHealth s f).sec = s.sec := rfl
@[simp] theorem onHealth_clk (s : State) (f : HealthState → HealthState) : (onHealth s f).clk = s.clk := rfl
@[simp] theorem onHealth_ft (s : State) (f : HealthState → HealthState) : (onHealth s f).ft = s.ft := rfl
@[simp] theorem onHealth_tat (s : State) (f : HealthState → HealthState) : (onHealth s f).tat = s.tat := rfl
@[simp] theorem onHealth_pwr (s : State) (f : HealthState → HealthState) : (onHealth s f).pwr = s.pwr := rfl
@[simp] theorem onHealth_evf (s : State) (f : HealthState → HealthState) : (onHealth s f).evf = s.evf := rfl
@[simp] theorem onHealth_ports (s : State) (f : HealthState → HealthState) : (onHealth s f).ports = s.ports := rfl
@[simp] theorem onHealth_snap (s : State) (f : HealthState → HealthState) : (onHealth s f).snap = s.snap := rfl
@[simp] theorem onHealth_fratra (s : State) (f : HealthState → HealthState) : (onHealth s f).fratra = s.fratra := rfl
@[simp] theorem onHealth_hrv (s : State) (f : HealthState → HealthState) : (onHealth s f).hrv = s.hrv := rfl
@[simp] theorem onHealth_acd (s : State) (f : HealthState → HealthState) : (onHealth s f).acd = s.acd := rfl
@[simp] theorem onHealth_hub (s : State) (f : HealthState → HealthState) : (onHealth s f).hub = s.hub := rfl
@[simp] theorem onHealth_bus (s : State) (f : HealthState → HealthState) : (onHealth s f).bus = s.bus := rfl
@[simp] theorem onHealth_aqe (s : State) (f : HealthState → HealthState) : (onHealth s f).aqe = s.aqe := rfl
@[simp] theorem onHealth_usb (s : State) (f : HealthState → HealthState) : (onHealth s f).usb = s.usb := rfl
@[simp] theorem onHealth_freeCtr (s : State) (f : HealthState → HealthState) : (onHealth s f).freeCtr = s.freeCtr := rfl
@[simp] theorem onHealth_pending (s : State) (f : HealthState → HealthState) : (onHealth s f).pending = s.pending := rfl
@[simp] theorem onHealth_health (s : State) (f : HealthState → HealthState) : (onHealth s f).ftl.health = f s.ftl.health := rfl

/-! `onHrv` changes `hrv`. -/

@[simp] theorem onHrv_regs (s : State) (f : HrvState → HrvState) : (onHrv s f).regs = s.regs := rfl
@[simp] theorem onHrv_ctrs (s : State) (f : HrvState → HrvState) : (onHrv s f).ctrs = s.ctrs := rfl
@[simp] theorem onHrv_shadows (s : State) (f : HrvState → HrvState) : (onHrv s f).shadows = s.shadows := rfl
@[simp] theorem onHrv_inReset (s : State) (f : HrvState → HrvState) : (onHrv s f).inReset = s.inReset := rfl
@[simp] theorem onHrv_holdoffs (s : State) (f : HrvState → HrvState) : (onHrv s f).holdoffs = s.holdoffs := rfl
@[simp] theorem onHrv_levels (s : State) (f : HrvState → HrvState) : (onHrv s f).levels = s.levels := rfl
@[simp] theorem onHrv_irq0 (s : State) (f : HrvState → HrvState) : (onHrv s f).irq0 = s.irq0 := rfl
@[simp] theorem onHrv_irq1 (s : State) (f : HrvState → HrvState) : (onHrv s f).irq1 = s.irq1 := rfl
@[simp] theorem onHrv_results (s : State) (f : HrvState → HrvState) : (onHrv s f).results = s.results := rfl
@[simp] theorem onHrv_sec (s : State) (f : HrvState → HrvState) : (onHrv s f).sec = s.sec := rfl
@[simp] theorem onHrv_clk (s : State) (f : HrvState → HrvState) : (onHrv s f).clk = s.clk := rfl
@[simp] theorem onHrv_ft (s : State) (f : HrvState → HrvState) : (onHrv s f).ft = s.ft := rfl
@[simp] theorem onHrv_tat (s : State) (f : HrvState → HrvState) : (onHrv s f).tat = s.tat := rfl
@[simp] theorem onHrv_pwr (s : State) (f : HrvState → HrvState) : (onHrv s f).pwr = s.pwr := rfl
@[simp] theorem onHrv_evf (s : State) (f : HrvState → HrvState) : (onHrv s f).evf = s.evf := rfl
@[simp] theorem onHrv_ports (s : State) (f : HrvState → HrvState) : (onHrv s f).ports = s.ports := rfl
@[simp] theorem onHrv_snap (s : State) (f : HrvState → HrvState) : (onHrv s f).snap = s.snap := rfl
@[simp] theorem onHrv_fratra (s : State) (f : HrvState → HrvState) : (onHrv s f).fratra = s.fratra := rfl
@[simp] theorem onHrv_ftl (s : State) (f : HrvState → HrvState) : (onHrv s f).ftl = s.ftl := rfl
@[simp] theorem onHrv_acd (s : State) (f : HrvState → HrvState) : (onHrv s f).acd = s.acd := rfl
@[simp] theorem onHrv_hub (s : State) (f : HrvState → HrvState) : (onHrv s f).hub = s.hub := rfl
@[simp] theorem onHrv_bus (s : State) (f : HrvState → HrvState) : (onHrv s f).bus = s.bus := rfl
@[simp] theorem onHrv_aqe (s : State) (f : HrvState → HrvState) : (onHrv s f).aqe = s.aqe := rfl
@[simp] theorem onHrv_usb (s : State) (f : HrvState → HrvState) : (onHrv s f).usb = s.usb := rfl
@[simp] theorem onHrv_freeCtr (s : State) (f : HrvState → HrvState) : (onHrv s f).freeCtr = s.freeCtr := rfl
@[simp] theorem onHrv_pending (s : State) (f : HrvState → HrvState) : (onHrv s f).pending = s.pending := rfl
@[simp] theorem onHrv_hrv (s : State) (f : HrvState → HrvState) : (onHrv s f).hrv = f s.hrv := rfl

/-! `onPwr` changes `pwr`. -/

@[simp] theorem onPwr_regs (s : State) (f : PwrState → PwrState) : (onPwr s f).regs = s.regs := rfl
@[simp] theorem onPwr_ctrs (s : State) (f : PwrState → PwrState) : (onPwr s f).ctrs = s.ctrs := rfl
@[simp] theorem onPwr_shadows (s : State) (f : PwrState → PwrState) : (onPwr s f).shadows = s.shadows := rfl
@[simp] theorem onPwr_inReset (s : State) (f : PwrState → PwrState) : (onPwr s f).inReset = s.inReset := rfl
@[simp] theorem onPwr_holdoffs (s : State) (f : PwrState → PwrState) : (onPwr s f).holdoffs = s.holdoffs := rfl
@[simp] theorem onPwr_levels (s : State) (f : PwrState → PwrState) : (onPwr s f).levels = s.levels := rfl
@[simp] theorem onPwr_irq0 (s : State) (f : PwrState → PwrState) : (onPwr s f).irq0 = s.irq0 := rfl
@[simp] theorem onPwr_irq1 (s : State) (f : PwrState → PwrState) : (onPwr s f).irq1 = s.irq1 := rfl
@[simp] theorem onPwr_results (s : State) (f : PwrState → PwrState) : (onPwr s f).results = s.results := rfl
@[simp] theorem onPwr_sec (s : State) (f : PwrState → PwrState) : (onPwr s f).sec = s.sec := rfl
@[simp] theorem onPwr_clk (s : State) (f : PwrState → PwrState) : (onPwr s f).clk = s.clk := rfl
@[simp] theorem onPwr_ft (s : State) (f : PwrState → PwrState) : (onPwr s f).ft = s.ft := rfl
@[simp] theorem onPwr_tat (s : State) (f : PwrState → PwrState) : (onPwr s f).tat = s.tat := rfl
@[simp] theorem onPwr_evf (s : State) (f : PwrState → PwrState) : (onPwr s f).evf = s.evf := rfl
@[simp] theorem onPwr_ports (s : State) (f : PwrState → PwrState) : (onPwr s f).ports = s.ports := rfl
@[simp] theorem onPwr_snap (s : State) (f : PwrState → PwrState) : (onPwr s f).snap = s.snap := rfl
@[simp] theorem onPwr_fratra (s : State) (f : PwrState → PwrState) : (onPwr s f).fratra = s.fratra := rfl
@[simp] theorem onPwr_ftl (s : State) (f : PwrState → PwrState) : (onPwr s f).ftl = s.ftl := rfl
@[simp] theorem onPwr_hrv (s : State) (f : PwrState → PwrState) : (onPwr s f).hrv = s.hrv := rfl
@[simp] theorem onPwr_acd (s : State) (f : PwrState → PwrState) : (onPwr s f).acd = s.acd := rfl
@[simp] theorem onPwr_hub (s : State) (f : PwrState → PwrState) : (onPwr s f).hub = s.hub := rfl
@[simp] theorem onPwr_bus (s : State) (f : PwrState → PwrState) : (onPwr s f).bus = s.bus := rfl
@[simp] theorem onPwr_aqe (s : State) (f : PwrState → PwrState) : (onPwr s f).aqe = s.aqe := rfl
@[simp] theorem onPwr_usb (s : State) (f : PwrState → PwrState) : (onPwr s f).usb = s.usb := rfl
@[simp] theorem onPwr_freeCtr (s : State) (f : PwrState → PwrState) : (onPwr s f).freeCtr = s.freeCtr := rfl
@[simp] theorem onPwr_pending (s : State) (f : PwrState → PwrState) : (onPwr s f).pending = s.pending := rfl
@[simp] theorem onPwr_pwr (s : State) (f : PwrState → PwrState) : (onPwr s f).pwr = f s.pwr := rfl

/-! `onSec` changes `sec`. -/

@[simp] theorem onSec_regs (s : State) (f : SecState → SecState) : (onSec s f).regs = s.regs := rfl
@[simp] theorem onSec_ctrs (s : State) (f : SecState → SecState) : (onSec s f).ctrs = s.ctrs := rfl
@[simp] theorem onSec_shadows (s : State) (f : SecState → SecState) : (onSec s f).shadows = s.shadows := rfl
@[simp] theorem onSec_inReset (s : State) (f : SecState → SecState) : (onSec s f).inReset = s.inReset := rfl
@[simp] theorem onSec_holdoffs (s : State) (f : SecState → SecState) : (onSec s f).holdoffs = s.holdoffs := rfl
@[simp] theorem onSec_levels (s : State) (f : SecState → SecState) : (onSec s f).levels = s.levels := rfl
@[simp] theorem onSec_irq0 (s : State) (f : SecState → SecState) : (onSec s f).irq0 = s.irq0 := rfl
@[simp] theorem onSec_irq1 (s : State) (f : SecState → SecState) : (onSec s f).irq1 = s.irq1 := rfl
@[simp] theorem onSec_results (s : State) (f : SecState → SecState) : (onSec s f).results = s.results := rfl
@[simp] theorem onSec_clk (s : State) (f : SecState → SecState) : (onSec s f).clk = s.clk := rfl
@[simp] theorem onSec_ft (s : State) (f : SecState → SecState) : (onSec s f).ft = s.ft := rfl
@[simp] theorem onSec_tat (s : State) (f : SecState → SecState) : (onSec s f).tat = s.tat := rfl
@[simp] theorem onSec_pwr (s : State) (f : SecState → SecState) : (onSec s f).pwr = s.pwr := rfl
@[simp] theorem onSec_evf (s : State) (f : SecState → SecState) : (onSec s f).evf = s.evf := rfl
@[simp] theorem onSec_ports (s : State) (f : SecState → SecState) : (onSec s f).ports = s.ports := rfl
@[simp] theorem onSec_snap (s : State) (f : SecState → SecState) : (onSec s f).snap = s.snap := rfl
@[simp] theorem onSec_fratra (s : State) (f : SecState → SecState) : (onSec s f).fratra = s.fratra := rfl
@[simp] theorem onSec_ftl (s : State) (f : SecState → SecState) : (onSec s f).ftl = s.ftl := rfl
@[simp] theorem onSec_hrv (s : State) (f : SecState → SecState) : (onSec s f).hrv = s.hrv := rfl
@[simp] theorem onSec_acd (s : State) (f : SecState → SecState) : (onSec s f).acd = s.acd := rfl
@[simp] theorem onSec_hub (s : State) (f : SecState → SecState) : (onSec s f).hub = s.hub := rfl
@[simp] theorem onSec_bus (s : State) (f : SecState → SecState) : (onSec s f).bus = s.bus := rfl
@[simp] theorem onSec_aqe (s : State) (f : SecState → SecState) : (onSec s f).aqe = s.aqe := rfl
@[simp] theorem onSec_usb (s : State) (f : SecState → SecState) : (onSec s f).usb = s.usb := rfl
@[simp] theorem onSec_freeCtr (s : State) (f : SecState → SecState) : (onSec s f).freeCtr = s.freeCtr := rfl
@[simp] theorem onSec_pending (s : State) (f : SecState → SecState) : (onSec s f).pending = s.pending := rfl
@[simp] theorem onSec_sec (s : State) (f : SecState → SecState) : (onSec s f).sec = f s.sec := rfl

/-! `onFt` changes `ft`. -/

@[simp] theorem onFt_regs (s : State) (f : FtState → FtState) : (onFt s f).regs = s.regs := rfl
@[simp] theorem onFt_ctrs (s : State) (f : FtState → FtState) : (onFt s f).ctrs = s.ctrs := rfl
@[simp] theorem onFt_shadows (s : State) (f : FtState → FtState) : (onFt s f).shadows = s.shadows := rfl
@[simp] theorem onFt_inReset (s : State) (f : FtState → FtState) : (onFt s f).inReset = s.inReset := rfl
@[simp] theorem onFt_holdoffs (s : State) (f : FtState → FtState) : (onFt s f).holdoffs = s.holdoffs := rfl
@[simp] theorem onFt_levels (s : State) (f : FtState → FtState) : (onFt s f).levels = s.levels := rfl
@[simp] theorem onFt_irq0 (s : State) (f : FtState → FtState) : (onFt s f).irq0 = s.irq0 := rfl
@[simp] theorem onFt_irq1 (s : State) (f : FtState → FtState) : (onFt s f).irq1 = s.irq1 := rfl
@[simp] theorem onFt_results (s : State) (f : FtState → FtState) : (onFt s f).results = s.results := rfl
@[simp] theorem onFt_sec (s : State) (f : FtState → FtState) : (onFt s f).sec = s.sec := rfl
@[simp] theorem onFt_clk (s : State) (f : FtState → FtState) : (onFt s f).clk = s.clk := rfl
@[simp] theorem onFt_tat (s : State) (f : FtState → FtState) : (onFt s f).tat = s.tat := rfl
@[simp] theorem onFt_pwr (s : State) (f : FtState → FtState) : (onFt s f).pwr = s.pwr := rfl
@[simp] theorem onFt_evf (s : State) (f : FtState → FtState) : (onFt s f).evf = s.evf := rfl
@[simp] theorem onFt_ports (s : State) (f : FtState → FtState) : (onFt s f).ports = s.ports := rfl
@[simp] theorem onFt_snap (s : State) (f : FtState → FtState) : (onFt s f).snap = s.snap := rfl
@[simp] theorem onFt_fratra (s : State) (f : FtState → FtState) : (onFt s f).fratra = s.fratra := rfl
@[simp] theorem onFt_ftl (s : State) (f : FtState → FtState) : (onFt s f).ftl = s.ftl := rfl
@[simp] theorem onFt_hrv (s : State) (f : FtState → FtState) : (onFt s f).hrv = s.hrv := rfl
@[simp] theorem onFt_acd (s : State) (f : FtState → FtState) : (onFt s f).acd = s.acd := rfl
@[simp] theorem onFt_hub (s : State) (f : FtState → FtState) : (onFt s f).hub = s.hub := rfl
@[simp] theorem onFt_bus (s : State) (f : FtState → FtState) : (onFt s f).bus = s.bus := rfl
@[simp] theorem onFt_aqe (s : State) (f : FtState → FtState) : (onFt s f).aqe = s.aqe := rfl
@[simp] theorem onFt_usb (s : State) (f : FtState → FtState) : (onFt s f).usb = s.usb := rfl
@[simp] theorem onFt_freeCtr (s : State) (f : FtState → FtState) : (onFt s f).freeCtr = s.freeCtr := rfl
@[simp] theorem onFt_pending (s : State) (f : FtState → FtState) : (onFt s f).pending = s.pending := rfl
@[simp] theorem onFt_ft (s : State) (f : FtState → FtState) : (onFt s f).ft = f s.ft := rfl

/-! `onClk` changes `clk`. -/

@[simp] theorem onClk_regs (s : State) (f : ClkState → ClkState) : (onClk s f).regs = s.regs := rfl
@[simp] theorem onClk_ctrs (s : State) (f : ClkState → ClkState) : (onClk s f).ctrs = s.ctrs := rfl
@[simp] theorem onClk_shadows (s : State) (f : ClkState → ClkState) : (onClk s f).shadows = s.shadows := rfl
@[simp] theorem onClk_inReset (s : State) (f : ClkState → ClkState) : (onClk s f).inReset = s.inReset := rfl
@[simp] theorem onClk_holdoffs (s : State) (f : ClkState → ClkState) : (onClk s f).holdoffs = s.holdoffs := rfl
@[simp] theorem onClk_levels (s : State) (f : ClkState → ClkState) : (onClk s f).levels = s.levels := rfl
@[simp] theorem onClk_irq0 (s : State) (f : ClkState → ClkState) : (onClk s f).irq0 = s.irq0 := rfl
@[simp] theorem onClk_irq1 (s : State) (f : ClkState → ClkState) : (onClk s f).irq1 = s.irq1 := rfl
@[simp] theorem onClk_results (s : State) (f : ClkState → ClkState) : (onClk s f).results = s.results := rfl
@[simp] theorem onClk_sec (s : State) (f : ClkState → ClkState) : (onClk s f).sec = s.sec := rfl
@[simp] theorem onClk_ft (s : State) (f : ClkState → ClkState) : (onClk s f).ft = s.ft := rfl
@[simp] theorem onClk_tat (s : State) (f : ClkState → ClkState) : (onClk s f).tat = s.tat := rfl
@[simp] theorem onClk_pwr (s : State) (f : ClkState → ClkState) : (onClk s f).pwr = s.pwr := rfl
@[simp] theorem onClk_evf (s : State) (f : ClkState → ClkState) : (onClk s f).evf = s.evf := rfl
@[simp] theorem onClk_ports (s : State) (f : ClkState → ClkState) : (onClk s f).ports = s.ports := rfl
@[simp] theorem onClk_snap (s : State) (f : ClkState → ClkState) : (onClk s f).snap = s.snap := rfl
@[simp] theorem onClk_fratra (s : State) (f : ClkState → ClkState) : (onClk s f).fratra = s.fratra := rfl
@[simp] theorem onClk_ftl (s : State) (f : ClkState → ClkState) : (onClk s f).ftl = s.ftl := rfl
@[simp] theorem onClk_hrv (s : State) (f : ClkState → ClkState) : (onClk s f).hrv = s.hrv := rfl
@[simp] theorem onClk_acd (s : State) (f : ClkState → ClkState) : (onClk s f).acd = s.acd := rfl
@[simp] theorem onClk_hub (s : State) (f : ClkState → ClkState) : (onClk s f).hub = s.hub := rfl
@[simp] theorem onClk_bus (s : State) (f : ClkState → ClkState) : (onClk s f).bus = s.bus := rfl
@[simp] theorem onClk_aqe (s : State) (f : ClkState → ClkState) : (onClk s f).aqe = s.aqe := rfl
@[simp] theorem onClk_usb (s : State) (f : ClkState → ClkState) : (onClk s f).usb = s.usb := rfl
@[simp] theorem onClk_freeCtr (s : State) (f : ClkState → ClkState) : (onClk s f).freeCtr = s.freeCtr := rfl
@[simp] theorem onClk_pending (s : State) (f : ClkState → ClkState) : (onClk s f).pending = s.pending := rfl
@[simp] theorem onClk_clk (s : State) (f : ClkState → ClkState) : (onClk s f).clk = f s.clk := rfl

/-! `onTat` changes `tat`. -/

@[simp] theorem onTat_regs (s : State) (f : TatState → TatState) : (onTat s f).regs = s.regs := rfl
@[simp] theorem onTat_ctrs (s : State) (f : TatState → TatState) : (onTat s f).ctrs = s.ctrs := rfl
@[simp] theorem onTat_shadows (s : State) (f : TatState → TatState) : (onTat s f).shadows = s.shadows := rfl
@[simp] theorem onTat_inReset (s : State) (f : TatState → TatState) : (onTat s f).inReset = s.inReset := rfl
@[simp] theorem onTat_holdoffs (s : State) (f : TatState → TatState) : (onTat s f).holdoffs = s.holdoffs := rfl
@[simp] theorem onTat_levels (s : State) (f : TatState → TatState) : (onTat s f).levels = s.levels := rfl
@[simp] theorem onTat_irq0 (s : State) (f : TatState → TatState) : (onTat s f).irq0 = s.irq0 := rfl
@[simp] theorem onTat_irq1 (s : State) (f : TatState → TatState) : (onTat s f).irq1 = s.irq1 := rfl
@[simp] theorem onTat_results (s : State) (f : TatState → TatState) : (onTat s f).results = s.results := rfl
@[simp] theorem onTat_sec (s : State) (f : TatState → TatState) : (onTat s f).sec = s.sec := rfl
@[simp] theorem onTat_clk (s : State) (f : TatState → TatState) : (onTat s f).clk = s.clk := rfl
@[simp] theorem onTat_ft (s : State) (f : TatState → TatState) : (onTat s f).ft = s.ft := rfl
@[simp] theorem onTat_pwr (s : State) (f : TatState → TatState) : (onTat s f).pwr = s.pwr := rfl
@[simp] theorem onTat_evf (s : State) (f : TatState → TatState) : (onTat s f).evf = s.evf := rfl
@[simp] theorem onTat_ports (s : State) (f : TatState → TatState) : (onTat s f).ports = s.ports := rfl
@[simp] theorem onTat_snap (s : State) (f : TatState → TatState) : (onTat s f).snap = s.snap := rfl
@[simp] theorem onTat_fratra (s : State) (f : TatState → TatState) : (onTat s f).fratra = s.fratra := rfl
@[simp] theorem onTat_ftl (s : State) (f : TatState → TatState) : (onTat s f).ftl = s.ftl := rfl
@[simp] theorem onTat_hrv (s : State) (f : TatState → TatState) : (onTat s f).hrv = s.hrv := rfl
@[simp] theorem onTat_acd (s : State) (f : TatState → TatState) : (onTat s f).acd = s.acd := rfl
@[simp] theorem onTat_hub (s : State) (f : TatState → TatState) : (onTat s f).hub = s.hub := rfl
@[simp] theorem onTat_bus (s : State) (f : TatState → TatState) : (onTat s f).bus = s.bus := rfl
@[simp] theorem onTat_aqe (s : State) (f : TatState → TatState) : (onTat s f).aqe = s.aqe := rfl
@[simp] theorem onTat_usb (s : State) (f : TatState → TatState) : (onTat s f).usb = s.usb := rfl
@[simp] theorem onTat_freeCtr (s : State) (f : TatState → TatState) : (onTat s f).freeCtr = s.freeCtr := rfl
@[simp] theorem onTat_pending (s : State) (f : TatState → TatState) : (onTat s f).pending = s.pending := rfl
@[simp] theorem onTat_tat (s : State) (f : TatState → TatState) : (onTat s f).tat = f s.tat := rfl

/-! `onBus` changes `bus`. -/

@[simp] theorem onBus_regs (s : State) (f : BusState → BusState) : (onBus s f).regs = s.regs := rfl
@[simp] theorem onBus_ctrs (s : State) (f : BusState → BusState) : (onBus s f).ctrs = s.ctrs := rfl
@[simp] theorem onBus_shadows (s : State) (f : BusState → BusState) : (onBus s f).shadows = s.shadows := rfl
@[simp] theorem onBus_inReset (s : State) (f : BusState → BusState) : (onBus s f).inReset = s.inReset := rfl
@[simp] theorem onBus_holdoffs (s : State) (f : BusState → BusState) : (onBus s f).holdoffs = s.holdoffs := rfl
@[simp] theorem onBus_levels (s : State) (f : BusState → BusState) : (onBus s f).levels = s.levels := rfl
@[simp] theorem onBus_irq0 (s : State) (f : BusState → BusState) : (onBus s f).irq0 = s.irq0 := rfl
@[simp] theorem onBus_irq1 (s : State) (f : BusState → BusState) : (onBus s f).irq1 = s.irq1 := rfl
@[simp] theorem onBus_results (s : State) (f : BusState → BusState) : (onBus s f).results = s.results := rfl
@[simp] theorem onBus_sec (s : State) (f : BusState → BusState) : (onBus s f).sec = s.sec := rfl
@[simp] theorem onBus_clk (s : State) (f : BusState → BusState) : (onBus s f).clk = s.clk := rfl
@[simp] theorem onBus_ft (s : State) (f : BusState → BusState) : (onBus s f).ft = s.ft := rfl
@[simp] theorem onBus_tat (s : State) (f : BusState → BusState) : (onBus s f).tat = s.tat := rfl
@[simp] theorem onBus_pwr (s : State) (f : BusState → BusState) : (onBus s f).pwr = s.pwr := rfl
@[simp] theorem onBus_evf (s : State) (f : BusState → BusState) : (onBus s f).evf = s.evf := rfl
@[simp] theorem onBus_ports (s : State) (f : BusState → BusState) : (onBus s f).ports = s.ports := rfl
@[simp] theorem onBus_snap (s : State) (f : BusState → BusState) : (onBus s f).snap = s.snap := rfl
@[simp] theorem onBus_fratra (s : State) (f : BusState → BusState) : (onBus s f).fratra = s.fratra := rfl
@[simp] theorem onBus_ftl (s : State) (f : BusState → BusState) : (onBus s f).ftl = s.ftl := rfl
@[simp] theorem onBus_hrv (s : State) (f : BusState → BusState) : (onBus s f).hrv = s.hrv := rfl
@[simp] theorem onBus_acd (s : State) (f : BusState → BusState) : (onBus s f).acd = s.acd := rfl
@[simp] theorem onBus_hub (s : State) (f : BusState → BusState) : (onBus s f).hub = s.hub := rfl
@[simp] theorem onBus_aqe (s : State) (f : BusState → BusState) : (onBus s f).aqe = s.aqe := rfl
@[simp] theorem onBus_usb (s : State) (f : BusState → BusState) : (onBus s f).usb = s.usb := rfl
@[simp] theorem onBus_freeCtr (s : State) (f : BusState → BusState) : (onBus s f).freeCtr = s.freeCtr := rfl
@[simp] theorem onBus_pending (s : State) (f : BusState → BusState) : (onBus s f).pending = s.pending := rfl
@[simp] theorem onBus_bus (s : State) (f : BusState → BusState) : (onBus s f).bus = f s.bus := rfl

/-! `onAqe` changes `aqe`. -/

@[simp] theorem onAqe_regs (s : State) (f : AqeState → AqeState) : (onAqe s f).regs = s.regs := rfl
@[simp] theorem onAqe_ctrs (s : State) (f : AqeState → AqeState) : (onAqe s f).ctrs = s.ctrs := rfl
@[simp] theorem onAqe_shadows (s : State) (f : AqeState → AqeState) : (onAqe s f).shadows = s.shadows := rfl
@[simp] theorem onAqe_inReset (s : State) (f : AqeState → AqeState) : (onAqe s f).inReset = s.inReset := rfl
@[simp] theorem onAqe_holdoffs (s : State) (f : AqeState → AqeState) : (onAqe s f).holdoffs = s.holdoffs := rfl
@[simp] theorem onAqe_levels (s : State) (f : AqeState → AqeState) : (onAqe s f).levels = s.levels := rfl
@[simp] theorem onAqe_irq0 (s : State) (f : AqeState → AqeState) : (onAqe s f).irq0 = s.irq0 := rfl
@[simp] theorem onAqe_irq1 (s : State) (f : AqeState → AqeState) : (onAqe s f).irq1 = s.irq1 := rfl
@[simp] theorem onAqe_results (s : State) (f : AqeState → AqeState) : (onAqe s f).results = s.results := rfl
@[simp] theorem onAqe_sec (s : State) (f : AqeState → AqeState) : (onAqe s f).sec = s.sec := rfl
@[simp] theorem onAqe_clk (s : State) (f : AqeState → AqeState) : (onAqe s f).clk = s.clk := rfl
@[simp] theorem onAqe_ft (s : State) (f : AqeState → AqeState) : (onAqe s f).ft = s.ft := rfl
@[simp] theorem onAqe_tat (s : State) (f : AqeState → AqeState) : (onAqe s f).tat = s.tat := rfl
@[simp] theorem onAqe_pwr (s : State) (f : AqeState → AqeState) : (onAqe s f).pwr = s.pwr := rfl
@[simp] theorem onAqe_evf (s : State) (f : AqeState → AqeState) : (onAqe s f).evf = s.evf := rfl
@[simp] theorem onAqe_ports (s : State) (f : AqeState → AqeState) : (onAqe s f).ports = s.ports := rfl
@[simp] theorem onAqe_snap (s : State) (f : AqeState → AqeState) : (onAqe s f).snap = s.snap := rfl
@[simp] theorem onAqe_fratra (s : State) (f : AqeState → AqeState) : (onAqe s f).fratra = s.fratra := rfl
@[simp] theorem onAqe_ftl (s : State) (f : AqeState → AqeState) : (onAqe s f).ftl = s.ftl := rfl
@[simp] theorem onAqe_hrv (s : State) (f : AqeState → AqeState) : (onAqe s f).hrv = s.hrv := rfl
@[simp] theorem onAqe_acd (s : State) (f : AqeState → AqeState) : (onAqe s f).acd = s.acd := rfl
@[simp] theorem onAqe_hub (s : State) (f : AqeState → AqeState) : (onAqe s f).hub = s.hub := rfl
@[simp] theorem onAqe_bus (s : State) (f : AqeState → AqeState) : (onAqe s f).bus = s.bus := rfl
@[simp] theorem onAqe_usb (s : State) (f : AqeState → AqeState) : (onAqe s f).usb = s.usb := rfl
@[simp] theorem onAqe_freeCtr (s : State) (f : AqeState → AqeState) : (onAqe s f).freeCtr = s.freeCtr := rfl
@[simp] theorem onAqe_pending (s : State) (f : AqeState → AqeState) : (onAqe s f).pending = s.pending := rfl
@[simp] theorem onAqe_aqe (s : State) (f : AqeState → AqeState) : (onAqe s f).aqe = f s.aqe := rfl

/-! `setHoldoff` changes `holdoffs`. -/

@[simp] theorem setHoldoff_regs (s : State) (page dest : Nat) (h : HoldOff) : (setHoldoff s page dest h).regs = s.regs := rfl
@[simp] theorem setHoldoff_ctrs (s : State) (page dest : Nat) (h : HoldOff) : (setHoldoff s page dest h).ctrs = s.ctrs := rfl
@[simp] theorem setHoldoff_shadows (s : State) (page dest : Nat) (h : HoldOff) : (setHoldoff s page dest h).shadows = s.shadows := rfl
@[simp] theorem setHoldoff_inReset (s : State) (page dest : Nat) (h : HoldOff) : (setHoldoff s page dest h).inReset = s.inReset := rfl
@[simp] theorem setHoldoff_levels (s : State) (page dest : Nat) (h : HoldOff) : (setHoldoff s page dest h).levels = s.levels := rfl
@[simp] theorem setHoldoff_irq0 (s : State) (page dest : Nat) (h : HoldOff) : (setHoldoff s page dest h).irq0 = s.irq0 := rfl
@[simp] theorem setHoldoff_irq1 (s : State) (page dest : Nat) (h : HoldOff) : (setHoldoff s page dest h).irq1 = s.irq1 := rfl
@[simp] theorem setHoldoff_results (s : State) (page dest : Nat) (h : HoldOff) : (setHoldoff s page dest h).results = s.results := rfl
@[simp] theorem setHoldoff_sec (s : State) (page dest : Nat) (h : HoldOff) : (setHoldoff s page dest h).sec = s.sec := rfl
@[simp] theorem setHoldoff_clk (s : State) (page dest : Nat) (h : HoldOff) : (setHoldoff s page dest h).clk = s.clk := rfl
@[simp] theorem setHoldoff_ft (s : State) (page dest : Nat) (h : HoldOff) : (setHoldoff s page dest h).ft = s.ft := rfl
@[simp] theorem setHoldoff_tat (s : State) (page dest : Nat) (h : HoldOff) : (setHoldoff s page dest h).tat = s.tat := rfl
@[simp] theorem setHoldoff_pwr (s : State) (page dest : Nat) (h : HoldOff) : (setHoldoff s page dest h).pwr = s.pwr := rfl
@[simp] theorem setHoldoff_evf (s : State) (page dest : Nat) (h : HoldOff) : (setHoldoff s page dest h).evf = s.evf := rfl
@[simp] theorem setHoldoff_ports (s : State) (page dest : Nat) (h : HoldOff) : (setHoldoff s page dest h).ports = s.ports := rfl
@[simp] theorem setHoldoff_snap (s : State) (page dest : Nat) (h : HoldOff) : (setHoldoff s page dest h).snap = s.snap := rfl
@[simp] theorem setHoldoff_fratra (s : State) (page dest : Nat) (h : HoldOff) : (setHoldoff s page dest h).fratra = s.fratra := rfl
@[simp] theorem setHoldoff_ftl (s : State) (page dest : Nat) (h : HoldOff) : (setHoldoff s page dest h).ftl = s.ftl := rfl
@[simp] theorem setHoldoff_hrv (s : State) (page dest : Nat) (h : HoldOff) : (setHoldoff s page dest h).hrv = s.hrv := rfl
@[simp] theorem setHoldoff_acd (s : State) (page dest : Nat) (h : HoldOff) : (setHoldoff s page dest h).acd = s.acd := rfl
@[simp] theorem setHoldoff_hub (s : State) (page dest : Nat) (h : HoldOff) : (setHoldoff s page dest h).hub = s.hub := rfl
@[simp] theorem setHoldoff_bus (s : State) (page dest : Nat) (h : HoldOff) : (setHoldoff s page dest h).bus = s.bus := rfl
@[simp] theorem setHoldoff_aqe (s : State) (page dest : Nat) (h : HoldOff) : (setHoldoff s page dest h).aqe = s.aqe := rfl
@[simp] theorem setHoldoff_usb (s : State) (page dest : Nat) (h : HoldOff) : (setHoldoff s page dest h).usb = s.usb := rfl
@[simp] theorem setHoldoff_freeCtr (s : State) (page dest : Nat) (h : HoldOff) : (setHoldoff s page dest h).freeCtr = s.freeCtr := rfl
@[simp] theorem setHoldoff_pending (s : State) (page dest : Nat) (h : HoldOff) : (setHoldoff s page dest h).pending = s.pending := rfl

/-! `onPort` changes `ports`. -/

@[simp] theorem onPort_regs (s : State) (k : Nat) (f : PortState → PortState) : (onPort s k f).regs = s.regs := rfl
@[simp] theorem onPort_ctrs (s : State) (k : Nat) (f : PortState → PortState) : (onPort s k f).ctrs = s.ctrs := rfl
@[simp] theorem onPort_shadows (s : State) (k : Nat) (f : PortState → PortState) : (onPort s k f).shadows = s.shadows := rfl
@[simp] theorem onPort_inReset (s : State) (k : Nat) (f : PortState → PortState) : (onPort s k f).inReset = s.inReset := rfl
@[simp] theorem onPort_holdoffs (s : State) (k : Nat) (f : PortState → PortState) : (onPort s k f).holdoffs = s.holdoffs := rfl
@[simp] theorem onPort_levels (s : State) (k : Nat) (f : PortState → PortState) : (onPort s k f).levels = s.levels := rfl
@[simp] theorem onPort_irq0 (s : State) (k : Nat) (f : PortState → PortState) : (onPort s k f).irq0 = s.irq0 := rfl
@[simp] theorem onPort_irq1 (s : State) (k : Nat) (f : PortState → PortState) : (onPort s k f).irq1 = s.irq1 := rfl
@[simp] theorem onPort_results (s : State) (k : Nat) (f : PortState → PortState) : (onPort s k f).results = s.results := rfl
@[simp] theorem onPort_sec (s : State) (k : Nat) (f : PortState → PortState) : (onPort s k f).sec = s.sec := rfl
@[simp] theorem onPort_clk (s : State) (k : Nat) (f : PortState → PortState) : (onPort s k f).clk = s.clk := rfl
@[simp] theorem onPort_ft (s : State) (k : Nat) (f : PortState → PortState) : (onPort s k f).ft = s.ft := rfl
@[simp] theorem onPort_tat (s : State) (k : Nat) (f : PortState → PortState) : (onPort s k f).tat = s.tat := rfl
@[simp] theorem onPort_pwr (s : State) (k : Nat) (f : PortState → PortState) : (onPort s k f).pwr = s.pwr := rfl
@[simp] theorem onPort_evf (s : State) (k : Nat) (f : PortState → PortState) : (onPort s k f).evf = s.evf := rfl
@[simp] theorem onPort_snap (s : State) (k : Nat) (f : PortState → PortState) : (onPort s k f).snap = s.snap := rfl
@[simp] theorem onPort_fratra (s : State) (k : Nat) (f : PortState → PortState) : (onPort s k f).fratra = s.fratra := rfl
@[simp] theorem onPort_ftl (s : State) (k : Nat) (f : PortState → PortState) : (onPort s k f).ftl = s.ftl := rfl
@[simp] theorem onPort_hrv (s : State) (k : Nat) (f : PortState → PortState) : (onPort s k f).hrv = s.hrv := rfl
@[simp] theorem onPort_acd (s : State) (k : Nat) (f : PortState → PortState) : (onPort s k f).acd = s.acd := rfl
@[simp] theorem onPort_hub (s : State) (k : Nat) (f : PortState → PortState) : (onPort s k f).hub = s.hub := rfl
@[simp] theorem onPort_bus (s : State) (k : Nat) (f : PortState → PortState) : (onPort s k f).bus = s.bus := rfl
@[simp] theorem onPort_aqe (s : State) (k : Nat) (f : PortState → PortState) : (onPort s k f).aqe = s.aqe := rfl
@[simp] theorem onPort_usb (s : State) (k : Nat) (f : PortState → PortState) : (onPort s k f).usb = s.usb := rfl
@[simp] theorem onPort_freeCtr (s : State) (k : Nat) (f : PortState → PortState) : (onPort s k f).freeCtr = s.freeCtr := rfl
@[simp] theorem onPort_pending (s : State) (k : Nat) (f : PortState → PortState) : (onPort s k f).pending = s.pending := rfl
@[simp] theorem onPort_ports (s : State) (k : Nat) (f : PortState → PortState) : (onPort s k f).ports = storePut s.ports k {} (f (s.port k)) := rfl

/-! `onTen` changes `fratra`. -/

@[simp] theorem onTen_regs (s : State) (n : Nat) (f : Tenant → Tenant) : (onTen s n f).regs = s.regs := rfl
@[simp] theorem onTen_ctrs (s : State) (n : Nat) (f : Tenant → Tenant) : (onTen s n f).ctrs = s.ctrs := rfl
@[simp] theorem onTen_shadows (s : State) (n : Nat) (f : Tenant → Tenant) : (onTen s n f).shadows = s.shadows := rfl
@[simp] theorem onTen_inReset (s : State) (n : Nat) (f : Tenant → Tenant) : (onTen s n f).inReset = s.inReset := rfl
@[simp] theorem onTen_holdoffs (s : State) (n : Nat) (f : Tenant → Tenant) : (onTen s n f).holdoffs = s.holdoffs := rfl
@[simp] theorem onTen_levels (s : State) (n : Nat) (f : Tenant → Tenant) : (onTen s n f).levels = s.levels := rfl
@[simp] theorem onTen_irq0 (s : State) (n : Nat) (f : Tenant → Tenant) : (onTen s n f).irq0 = s.irq0 := rfl
@[simp] theorem onTen_irq1 (s : State) (n : Nat) (f : Tenant → Tenant) : (onTen s n f).irq1 = s.irq1 := rfl
@[simp] theorem onTen_results (s : State) (n : Nat) (f : Tenant → Tenant) : (onTen s n f).results = s.results := rfl
@[simp] theorem onTen_sec (s : State) (n : Nat) (f : Tenant → Tenant) : (onTen s n f).sec = s.sec := rfl
@[simp] theorem onTen_clk (s : State) (n : Nat) (f : Tenant → Tenant) : (onTen s n f).clk = s.clk := rfl
@[simp] theorem onTen_ft (s : State) (n : Nat) (f : Tenant → Tenant) : (onTen s n f).ft = s.ft := rfl
@[simp] theorem onTen_tat (s : State) (n : Nat) (f : Tenant → Tenant) : (onTen s n f).tat = s.tat := rfl
@[simp] theorem onTen_pwr (s : State) (n : Nat) (f : Tenant → Tenant) : (onTen s n f).pwr = s.pwr := rfl
@[simp] theorem onTen_evf (s : State) (n : Nat) (f : Tenant → Tenant) : (onTen s n f).evf = s.evf := rfl
@[simp] theorem onTen_ports (s : State) (n : Nat) (f : Tenant → Tenant) : (onTen s n f).ports = s.ports := rfl
@[simp] theorem onTen_snap (s : State) (n : Nat) (f : Tenant → Tenant) : (onTen s n f).snap = s.snap := rfl
@[simp] theorem onTen_ftl (s : State) (n : Nat) (f : Tenant → Tenant) : (onTen s n f).ftl = s.ftl := rfl
@[simp] theorem onTen_hrv (s : State) (n : Nat) (f : Tenant → Tenant) : (onTen s n f).hrv = s.hrv := rfl
@[simp] theorem onTen_acd (s : State) (n : Nat) (f : Tenant → Tenant) : (onTen s n f).acd = s.acd := rfl
@[simp] theorem onTen_hub (s : State) (n : Nat) (f : Tenant → Tenant) : (onTen s n f).hub = s.hub := rfl
@[simp] theorem onTen_bus (s : State) (n : Nat) (f : Tenant → Tenant) : (onTen s n f).bus = s.bus := rfl
@[simp] theorem onTen_aqe (s : State) (n : Nat) (f : Tenant → Tenant) : (onTen s n f).aqe = s.aqe := rfl
@[simp] theorem onTen_usb (s : State) (n : Nat) (f : Tenant → Tenant) : (onTen s n f).usb = s.usb := rfl
@[simp] theorem onTen_freeCtr (s : State) (n : Nat) (f : Tenant → Tenant) : (onTen s n f).freeCtr = s.freeCtr := rfl
@[simp] theorem onTen_pending (s : State) (n : Nat) (f : Tenant → Tenant) : (onTen s n f).pending = s.pending := rfl

/-! `onLun` changes `ftl`. -/

@[simp] theorem onLun_regs (s : State) (n : Nat) (f : Lun → Lun) : (onLun s n f).regs = s.regs := rfl
@[simp] theorem onLun_ctrs (s : State) (n : Nat) (f : Lun → Lun) : (onLun s n f).ctrs = s.ctrs := rfl
@[simp] theorem onLun_shadows (s : State) (n : Nat) (f : Lun → Lun) : (onLun s n f).shadows = s.shadows := rfl
@[simp] theorem onLun_inReset (s : State) (n : Nat) (f : Lun → Lun) : (onLun s n f).inReset = s.inReset := rfl
@[simp] theorem onLun_holdoffs (s : State) (n : Nat) (f : Lun → Lun) : (onLun s n f).holdoffs = s.holdoffs := rfl
@[simp] theorem onLun_levels (s : State) (n : Nat) (f : Lun → Lun) : (onLun s n f).levels = s.levels := rfl
@[simp] theorem onLun_irq0 (s : State) (n : Nat) (f : Lun → Lun) : (onLun s n f).irq0 = s.irq0 := rfl
@[simp] theorem onLun_irq1 (s : State) (n : Nat) (f : Lun → Lun) : (onLun s n f).irq1 = s.irq1 := rfl
@[simp] theorem onLun_results (s : State) (n : Nat) (f : Lun → Lun) : (onLun s n f).results = s.results := rfl
@[simp] theorem onLun_sec (s : State) (n : Nat) (f : Lun → Lun) : (onLun s n f).sec = s.sec := rfl
@[simp] theorem onLun_clk (s : State) (n : Nat) (f : Lun → Lun) : (onLun s n f).clk = s.clk := rfl
@[simp] theorem onLun_ft (s : State) (n : Nat) (f : Lun → Lun) : (onLun s n f).ft = s.ft := rfl
@[simp] theorem onLun_tat (s : State) (n : Nat) (f : Lun → Lun) : (onLun s n f).tat = s.tat := rfl
@[simp] theorem onLun_pwr (s : State) (n : Nat) (f : Lun → Lun) : (onLun s n f).pwr = s.pwr := rfl
@[simp] theorem onLun_evf (s : State) (n : Nat) (f : Lun → Lun) : (onLun s n f).evf = s.evf := rfl
@[simp] theorem onLun_ports (s : State) (n : Nat) (f : Lun → Lun) : (onLun s n f).ports = s.ports := rfl
@[simp] theorem onLun_snap (s : State) (n : Nat) (f : Lun → Lun) : (onLun s n f).snap = s.snap := rfl
@[simp] theorem onLun_fratra (s : State) (n : Nat) (f : Lun → Lun) : (onLun s n f).fratra = s.fratra := rfl
@[simp] theorem onLun_hrv (s : State) (n : Nat) (f : Lun → Lun) : (onLun s n f).hrv = s.hrv := rfl
@[simp] theorem onLun_acd (s : State) (n : Nat) (f : Lun → Lun) : (onLun s n f).acd = s.acd := rfl
@[simp] theorem onLun_hub (s : State) (n : Nat) (f : Lun → Lun) : (onLun s n f).hub = s.hub := rfl
@[simp] theorem onLun_bus (s : State) (n : Nat) (f : Lun → Lun) : (onLun s n f).bus = s.bus := rfl
@[simp] theorem onLun_aqe (s : State) (n : Nat) (f : Lun → Lun) : (onLun s n f).aqe = s.aqe := rfl
@[simp] theorem onLun_usb (s : State) (n : Nat) (f : Lun → Lun) : (onLun s n f).usb = s.usb := rfl
@[simp] theorem onLun_freeCtr (s : State) (n : Nat) (f : Lun → Lun) : (onLun s n f).freeCtr = s.freeCtr := rfl
@[simp] theorem onLun_pending (s : State) (n : Nat) (f : Lun → Lun) : (onLun s n f).pending = s.pending := rfl

/-! `onSheaf` changes `ftl`. -/

@[simp] theorem onSheaf_regs (s : State) (n : Nat) (f : Sheaf → Sheaf) : (onSheaf s n f).regs = s.regs := rfl
@[simp] theorem onSheaf_ctrs (s : State) (n : Nat) (f : Sheaf → Sheaf) : (onSheaf s n f).ctrs = s.ctrs := rfl
@[simp] theorem onSheaf_shadows (s : State) (n : Nat) (f : Sheaf → Sheaf) : (onSheaf s n f).shadows = s.shadows := rfl
@[simp] theorem onSheaf_inReset (s : State) (n : Nat) (f : Sheaf → Sheaf) : (onSheaf s n f).inReset = s.inReset := rfl
@[simp] theorem onSheaf_holdoffs (s : State) (n : Nat) (f : Sheaf → Sheaf) : (onSheaf s n f).holdoffs = s.holdoffs := rfl
@[simp] theorem onSheaf_levels (s : State) (n : Nat) (f : Sheaf → Sheaf) : (onSheaf s n f).levels = s.levels := rfl
@[simp] theorem onSheaf_irq0 (s : State) (n : Nat) (f : Sheaf → Sheaf) : (onSheaf s n f).irq0 = s.irq0 := rfl
@[simp] theorem onSheaf_irq1 (s : State) (n : Nat) (f : Sheaf → Sheaf) : (onSheaf s n f).irq1 = s.irq1 := rfl
@[simp] theorem onSheaf_results (s : State) (n : Nat) (f : Sheaf → Sheaf) : (onSheaf s n f).results = s.results := rfl
@[simp] theorem onSheaf_sec (s : State) (n : Nat) (f : Sheaf → Sheaf) : (onSheaf s n f).sec = s.sec := rfl
@[simp] theorem onSheaf_clk (s : State) (n : Nat) (f : Sheaf → Sheaf) : (onSheaf s n f).clk = s.clk := rfl
@[simp] theorem onSheaf_ft (s : State) (n : Nat) (f : Sheaf → Sheaf) : (onSheaf s n f).ft = s.ft := rfl
@[simp] theorem onSheaf_tat (s : State) (n : Nat) (f : Sheaf → Sheaf) : (onSheaf s n f).tat = s.tat := rfl
@[simp] theorem onSheaf_pwr (s : State) (n : Nat) (f : Sheaf → Sheaf) : (onSheaf s n f).pwr = s.pwr := rfl
@[simp] theorem onSheaf_evf (s : State) (n : Nat) (f : Sheaf → Sheaf) : (onSheaf s n f).evf = s.evf := rfl
@[simp] theorem onSheaf_ports (s : State) (n : Nat) (f : Sheaf → Sheaf) : (onSheaf s n f).ports = s.ports := rfl
@[simp] theorem onSheaf_snap (s : State) (n : Nat) (f : Sheaf → Sheaf) : (onSheaf s n f).snap = s.snap := rfl
@[simp] theorem onSheaf_fratra (s : State) (n : Nat) (f : Sheaf → Sheaf) : (onSheaf s n f).fratra = s.fratra := rfl
@[simp] theorem onSheaf_hrv (s : State) (n : Nat) (f : Sheaf → Sheaf) : (onSheaf s n f).hrv = s.hrv := rfl
@[simp] theorem onSheaf_acd (s : State) (n : Nat) (f : Sheaf → Sheaf) : (onSheaf s n f).acd = s.acd := rfl
@[simp] theorem onSheaf_hub (s : State) (n : Nat) (f : Sheaf → Sheaf) : (onSheaf s n f).hub = s.hub := rfl
@[simp] theorem onSheaf_bus (s : State) (n : Nat) (f : Sheaf → Sheaf) : (onSheaf s n f).bus = s.bus := rfl
@[simp] theorem onSheaf_aqe (s : State) (n : Nat) (f : Sheaf → Sheaf) : (onSheaf s n f).aqe = s.aqe := rfl
@[simp] theorem onSheaf_usb (s : State) (n : Nat) (f : Sheaf → Sheaf) : (onSheaf s n f).usb = s.usb := rfl
@[simp] theorem onSheaf_freeCtr (s : State) (n : Nat) (f : Sheaf → Sheaf) : (onSheaf s n f).freeCtr = s.freeCtr := rfl
@[simp] theorem onSheaf_pending (s : State) (n : Nat) (f : Sheaf → Sheaf) : (onSheaf s n f).pending = s.pending := rfl

/-! `setChan` changes `ftl`. -/

@[simp] theorem setChan_regs (s : State) (c : Nat) (f : ChanState → ChanState) : (setChan s c f).regs = s.regs := rfl
@[simp] theorem setChan_ctrs (s : State) (c : Nat) (f : ChanState → ChanState) : (setChan s c f).ctrs = s.ctrs := rfl
@[simp] theorem setChan_shadows (s : State) (c : Nat) (f : ChanState → ChanState) : (setChan s c f).shadows = s.shadows := rfl
@[simp] theorem setChan_inReset (s : State) (c : Nat) (f : ChanState → ChanState) : (setChan s c f).inReset = s.inReset := rfl
@[simp] theorem setChan_holdoffs (s : State) (c : Nat) (f : ChanState → ChanState) : (setChan s c f).holdoffs = s.holdoffs := rfl
@[simp] theorem setChan_levels (s : State) (c : Nat) (f : ChanState → ChanState) : (setChan s c f).levels = s.levels := rfl
@[simp] theorem setChan_irq0 (s : State) (c : Nat) (f : ChanState → ChanState) : (setChan s c f).irq0 = s.irq0 := rfl
@[simp] theorem setChan_irq1 (s : State) (c : Nat) (f : ChanState → ChanState) : (setChan s c f).irq1 = s.irq1 := rfl
@[simp] theorem setChan_results (s : State) (c : Nat) (f : ChanState → ChanState) : (setChan s c f).results = s.results := rfl
@[simp] theorem setChan_sec (s : State) (c : Nat) (f : ChanState → ChanState) : (setChan s c f).sec = s.sec := rfl
@[simp] theorem setChan_clk (s : State) (c : Nat) (f : ChanState → ChanState) : (setChan s c f).clk = s.clk := rfl
@[simp] theorem setChan_ft (s : State) (c : Nat) (f : ChanState → ChanState) : (setChan s c f).ft = s.ft := rfl
@[simp] theorem setChan_tat (s : State) (c : Nat) (f : ChanState → ChanState) : (setChan s c f).tat = s.tat := rfl
@[simp] theorem setChan_pwr (s : State) (c : Nat) (f : ChanState → ChanState) : (setChan s c f).pwr = s.pwr := rfl
@[simp] theorem setChan_evf (s : State) (c : Nat) (f : ChanState → ChanState) : (setChan s c f).evf = s.evf := rfl
@[simp] theorem setChan_ports (s : State) (c : Nat) (f : ChanState → ChanState) : (setChan s c f).ports = s.ports := rfl
@[simp] theorem setChan_snap (s : State) (c : Nat) (f : ChanState → ChanState) : (setChan s c f).snap = s.snap := rfl
@[simp] theorem setChan_fratra (s : State) (c : Nat) (f : ChanState → ChanState) : (setChan s c f).fratra = s.fratra := rfl
@[simp] theorem setChan_hrv (s : State) (c : Nat) (f : ChanState → ChanState) : (setChan s c f).hrv = s.hrv := rfl
@[simp] theorem setChan_acd (s : State) (c : Nat) (f : ChanState → ChanState) : (setChan s c f).acd = s.acd := rfl
@[simp] theorem setChan_hub (s : State) (c : Nat) (f : ChanState → ChanState) : (setChan s c f).hub = s.hub := rfl
@[simp] theorem setChan_bus (s : State) (c : Nat) (f : ChanState → ChanState) : (setChan s c f).bus = s.bus := rfl
@[simp] theorem setChan_aqe (s : State) (c : Nat) (f : ChanState → ChanState) : (setChan s c f).aqe = s.aqe := rfl
@[simp] theorem setChan_usb (s : State) (c : Nat) (f : ChanState → ChanState) : (setChan s c f).usb = s.usb := rfl
@[simp] theorem setChan_freeCtr (s : State) (c : Nat) (f : ChanState → ChanState) : (setChan s c f).freeCtr = s.freeCtr := rfl
@[simp] theorem setChan_pending (s : State) (c : Nat) (f : ChanState → ChanState) : (setChan s c f).pending = s.pending := rfl

/-! `onPool` changes `ftl`. -/

@[simp] theorem onPool_regs (s : State) (f : JournalPool → JournalPool) : (onPool s f).regs = s.regs := rfl
@[simp] theorem onPool_ctrs (s : State) (f : JournalPool → JournalPool) : (onPool s f).ctrs = s.ctrs := rfl
@[simp] theorem onPool_shadows (s : State) (f : JournalPool → JournalPool) : (onPool s f).shadows = s.shadows := rfl
@[simp] theorem onPool_inReset (s : State) (f : JournalPool → JournalPool) : (onPool s f).inReset = s.inReset := rfl
@[simp] theorem onPool_holdoffs (s : State) (f : JournalPool → JournalPool) : (onPool s f).holdoffs = s.holdoffs := rfl
@[simp] theorem onPool_levels (s : State) (f : JournalPool → JournalPool) : (onPool s f).levels = s.levels := rfl
@[simp] theorem onPool_irq0 (s : State) (f : JournalPool → JournalPool) : (onPool s f).irq0 = s.irq0 := rfl
@[simp] theorem onPool_irq1 (s : State) (f : JournalPool → JournalPool) : (onPool s f).irq1 = s.irq1 := rfl
@[simp] theorem onPool_results (s : State) (f : JournalPool → JournalPool) : (onPool s f).results = s.results := rfl
@[simp] theorem onPool_sec (s : State) (f : JournalPool → JournalPool) : (onPool s f).sec = s.sec := rfl
@[simp] theorem onPool_clk (s : State) (f : JournalPool → JournalPool) : (onPool s f).clk = s.clk := rfl
@[simp] theorem onPool_ft (s : State) (f : JournalPool → JournalPool) : (onPool s f).ft = s.ft := rfl
@[simp] theorem onPool_tat (s : State) (f : JournalPool → JournalPool) : (onPool s f).tat = s.tat := rfl
@[simp] theorem onPool_pwr (s : State) (f : JournalPool → JournalPool) : (onPool s f).pwr = s.pwr := rfl
@[simp] theorem onPool_evf (s : State) (f : JournalPool → JournalPool) : (onPool s f).evf = s.evf := rfl
@[simp] theorem onPool_ports (s : State) (f : JournalPool → JournalPool) : (onPool s f).ports = s.ports := rfl
@[simp] theorem onPool_snap (s : State) (f : JournalPool → JournalPool) : (onPool s f).snap = s.snap := rfl
@[simp] theorem onPool_fratra (s : State) (f : JournalPool → JournalPool) : (onPool s f).fratra = s.fratra := rfl
@[simp] theorem onPool_hrv (s : State) (f : JournalPool → JournalPool) : (onPool s f).hrv = s.hrv := rfl
@[simp] theorem onPool_acd (s : State) (f : JournalPool → JournalPool) : (onPool s f).acd = s.acd := rfl
@[simp] theorem onPool_hub (s : State) (f : JournalPool → JournalPool) : (onPool s f).hub = s.hub := rfl
@[simp] theorem onPool_bus (s : State) (f : JournalPool → JournalPool) : (onPool s f).bus = s.bus := rfl
@[simp] theorem onPool_aqe (s : State) (f : JournalPool → JournalPool) : (onPool s f).aqe = s.aqe := rfl
@[simp] theorem onPool_usb (s : State) (f : JournalPool → JournalPool) : (onPool s f).usb = s.usb := rfl
@[simp] theorem onPool_freeCtr (s : State) (f : JournalPool → JournalPool) : (onPool s f).freeCtr = s.freeCtr := rfl
@[simp] theorem onPool_pending (s : State) (f : JournalPool → JournalPool) : (onPool s f).pending = s.pending := rfl

/-! `putStream` changes `fratra`. -/

@[simp] theorem putStream_regs (s : State) (c : StreamCtx) : (putStream s c).regs = s.regs := rfl
@[simp] theorem putStream_ctrs (s : State) (c : StreamCtx) : (putStream s c).ctrs = s.ctrs := rfl
@[simp] theorem putStream_shadows (s : State) (c : StreamCtx) : (putStream s c).shadows = s.shadows := rfl
@[simp] theorem putStream_inReset (s : State) (c : StreamCtx) : (putStream s c).inReset = s.inReset := rfl
@[simp] theorem putStream_holdoffs (s : State) (c : StreamCtx) : (putStream s c).holdoffs = s.holdoffs := rfl
@[simp] theorem putStream_levels (s : State) (c : StreamCtx) : (putStream s c).levels = s.levels := rfl
@[simp] theorem putStream_irq0 (s : State) (c : StreamCtx) : (putStream s c).irq0 = s.irq0 := rfl
@[simp] theorem putStream_irq1 (s : State) (c : StreamCtx) : (putStream s c).irq1 = s.irq1 := rfl
@[simp] theorem putStream_results (s : State) (c : StreamCtx) : (putStream s c).results = s.results := rfl
@[simp] theorem putStream_sec (s : State) (c : StreamCtx) : (putStream s c).sec = s.sec := rfl
@[simp] theorem putStream_clk (s : State) (c : StreamCtx) : (putStream s c).clk = s.clk := rfl
@[simp] theorem putStream_ft (s : State) (c : StreamCtx) : (putStream s c).ft = s.ft := rfl
@[simp] theorem putStream_tat (s : State) (c : StreamCtx) : (putStream s c).tat = s.tat := rfl
@[simp] theorem putStream_pwr (s : State) (c : StreamCtx) : (putStream s c).pwr = s.pwr := rfl
@[simp] theorem putStream_evf (s : State) (c : StreamCtx) : (putStream s c).evf = s.evf := rfl
@[simp] theorem putStream_ports (s : State) (c : StreamCtx) : (putStream s c).ports = s.ports := rfl
@[simp] theorem putStream_snap (s : State) (c : StreamCtx) : (putStream s c).snap = s.snap := rfl
@[simp] theorem putStream_ftl (s : State) (c : StreamCtx) : (putStream s c).ftl = s.ftl := rfl
@[simp] theorem putStream_hrv (s : State) (c : StreamCtx) : (putStream s c).hrv = s.hrv := rfl
@[simp] theorem putStream_acd (s : State) (c : StreamCtx) : (putStream s c).acd = s.acd := rfl
@[simp] theorem putStream_hub (s : State) (c : StreamCtx) : (putStream s c).hub = s.hub := rfl
@[simp] theorem putStream_bus (s : State) (c : StreamCtx) : (putStream s c).bus = s.bus := rfl
@[simp] theorem putStream_aqe (s : State) (c : StreamCtx) : (putStream s c).aqe = s.aqe := rfl
@[simp] theorem putStream_usb (s : State) (c : StreamCtx) : (putStream s c).usb = s.usb := rfl
@[simp] theorem putStream_freeCtr (s : State) (c : StreamCtx) : (putStream s c).freeCtr = s.freeCtr := rfl
@[simp] theorem putStream_pending (s : State) (c : StreamCtx) : (putStream s c).pending = s.pending := rfl

/-! `putOp` changes `fratra`. -/

@[simp] theorem putOp_regs (s : State) (k : Nat) (o : OpState) : (putOp s k o).regs = s.regs := rfl
@[simp] theorem putOp_ctrs (s : State) (k : Nat) (o : OpState) : (putOp s k o).ctrs = s.ctrs := rfl
@[simp] theorem putOp_shadows (s : State) (k : Nat) (o : OpState) : (putOp s k o).shadows = s.shadows := rfl
@[simp] theorem putOp_inReset (s : State) (k : Nat) (o : OpState) : (putOp s k o).inReset = s.inReset := rfl
@[simp] theorem putOp_holdoffs (s : State) (k : Nat) (o : OpState) : (putOp s k o).holdoffs = s.holdoffs := rfl
@[simp] theorem putOp_levels (s : State) (k : Nat) (o : OpState) : (putOp s k o).levels = s.levels := rfl
@[simp] theorem putOp_irq0 (s : State) (k : Nat) (o : OpState) : (putOp s k o).irq0 = s.irq0 := rfl
@[simp] theorem putOp_irq1 (s : State) (k : Nat) (o : OpState) : (putOp s k o).irq1 = s.irq1 := rfl
@[simp] theorem putOp_results (s : State) (k : Nat) (o : OpState) : (putOp s k o).results = s.results := rfl
@[simp] theorem putOp_sec (s : State) (k : Nat) (o : OpState) : (putOp s k o).sec = s.sec := rfl
@[simp] theorem putOp_clk (s : State) (k : Nat) (o : OpState) : (putOp s k o).clk = s.clk := rfl
@[simp] theorem putOp_ft (s : State) (k : Nat) (o : OpState) : (putOp s k o).ft = s.ft := rfl
@[simp] theorem putOp_tat (s : State) (k : Nat) (o : OpState) : (putOp s k o).tat = s.tat := rfl
@[simp] theorem putOp_pwr (s : State) (k : Nat) (o : OpState) : (putOp s k o).pwr = s.pwr := rfl
@[simp] theorem putOp_evf (s : State) (k : Nat) (o : OpState) : (putOp s k o).evf = s.evf := rfl
@[simp] theorem putOp_ports (s : State) (k : Nat) (o : OpState) : (putOp s k o).ports = s.ports := rfl
@[simp] theorem putOp_snap (s : State) (k : Nat) (o : OpState) : (putOp s k o).snap = s.snap := rfl
@[simp] theorem putOp_ftl (s : State) (k : Nat) (o : OpState) : (putOp s k o).ftl = s.ftl := rfl
@[simp] theorem putOp_hrv (s : State) (k : Nat) (o : OpState) : (putOp s k o).hrv = s.hrv := rfl
@[simp] theorem putOp_acd (s : State) (k : Nat) (o : OpState) : (putOp s k o).acd = s.acd := rfl
@[simp] theorem putOp_hub (s : State) (k : Nat) (o : OpState) : (putOp s k o).hub = s.hub := rfl
@[simp] theorem putOp_bus (s : State) (k : Nat) (o : OpState) : (putOp s k o).bus = s.bus := rfl
@[simp] theorem putOp_aqe (s : State) (k : Nat) (o : OpState) : (putOp s k o).aqe = s.aqe := rfl
@[simp] theorem putOp_usb (s : State) (k : Nat) (o : OpState) : (putOp s k o).usb = s.usb := rfl
@[simp] theorem putOp_freeCtr (s : State) (k : Nat) (o : OpState) : (putOp s k o).freeCtr = s.freeCtr := rfl
@[simp] theorem putOp_pending (s : State) (k : Nat) (o : OpState) : (putOp s k o).pending = s.pending := rfl

/-! `setEntry` changes `tat`. -/

@[simp] theorem setEntry_regs (s : State) (i : Nat) (e : TatEntry) : (setEntry s i e).regs = s.regs := rfl
@[simp] theorem setEntry_ctrs (s : State) (i : Nat) (e : TatEntry) : (setEntry s i e).ctrs = s.ctrs := rfl
@[simp] theorem setEntry_shadows (s : State) (i : Nat) (e : TatEntry) : (setEntry s i e).shadows = s.shadows := rfl
@[simp] theorem setEntry_inReset (s : State) (i : Nat) (e : TatEntry) : (setEntry s i e).inReset = s.inReset := rfl
@[simp] theorem setEntry_holdoffs (s : State) (i : Nat) (e : TatEntry) : (setEntry s i e).holdoffs = s.holdoffs := rfl
@[simp] theorem setEntry_levels (s : State) (i : Nat) (e : TatEntry) : (setEntry s i e).levels = s.levels := rfl
@[simp] theorem setEntry_irq0 (s : State) (i : Nat) (e : TatEntry) : (setEntry s i e).irq0 = s.irq0 := rfl
@[simp] theorem setEntry_irq1 (s : State) (i : Nat) (e : TatEntry) : (setEntry s i e).irq1 = s.irq1 := rfl
@[simp] theorem setEntry_results (s : State) (i : Nat) (e : TatEntry) : (setEntry s i e).results = s.results := rfl
@[simp] theorem setEntry_sec (s : State) (i : Nat) (e : TatEntry) : (setEntry s i e).sec = s.sec := rfl
@[simp] theorem setEntry_clk (s : State) (i : Nat) (e : TatEntry) : (setEntry s i e).clk = s.clk := rfl
@[simp] theorem setEntry_ft (s : State) (i : Nat) (e : TatEntry) : (setEntry s i e).ft = s.ft := rfl
@[simp] theorem setEntry_pwr (s : State) (i : Nat) (e : TatEntry) : (setEntry s i e).pwr = s.pwr := rfl
@[simp] theorem setEntry_evf (s : State) (i : Nat) (e : TatEntry) : (setEntry s i e).evf = s.evf := rfl
@[simp] theorem setEntry_ports (s : State) (i : Nat) (e : TatEntry) : (setEntry s i e).ports = s.ports := rfl
@[simp] theorem setEntry_snap (s : State) (i : Nat) (e : TatEntry) : (setEntry s i e).snap = s.snap := rfl
@[simp] theorem setEntry_fratra (s : State) (i : Nat) (e : TatEntry) : (setEntry s i e).fratra = s.fratra := rfl
@[simp] theorem setEntry_ftl (s : State) (i : Nat) (e : TatEntry) : (setEntry s i e).ftl = s.ftl := rfl
@[simp] theorem setEntry_hrv (s : State) (i : Nat) (e : TatEntry) : (setEntry s i e).hrv = s.hrv := rfl
@[simp] theorem setEntry_acd (s : State) (i : Nat) (e : TatEntry) : (setEntry s i e).acd = s.acd := rfl
@[simp] theorem setEntry_hub (s : State) (i : Nat) (e : TatEntry) : (setEntry s i e).hub = s.hub := rfl
@[simp] theorem setEntry_bus (s : State) (i : Nat) (e : TatEntry) : (setEntry s i e).bus = s.bus := rfl
@[simp] theorem setEntry_aqe (s : State) (i : Nat) (e : TatEntry) : (setEntry s i e).aqe = s.aqe := rfl
@[simp] theorem setEntry_usb (s : State) (i : Nat) (e : TatEntry) : (setEntry s i e).usb = s.usb := rfl
@[simp] theorem setEntry_freeCtr (s : State) (i : Nat) (e : TatEntry) : (setEntry s i e).freeCtr = s.freeCtr := rfl
@[simp] theorem setEntry_pending (s : State) (i : Nat) (e : TatEntry) : (setEntry s i e).pending = s.pending := rfl

/-! `onSettle` changes `pwr`. -/

@[simp] theorem onSettle_regs (s : State) (f : Settle → Settle) : (onSettle s f).regs = s.regs := rfl
@[simp] theorem onSettle_ctrs (s : State) (f : Settle → Settle) : (onSettle s f).ctrs = s.ctrs := rfl
@[simp] theorem onSettle_shadows (s : State) (f : Settle → Settle) : (onSettle s f).shadows = s.shadows := rfl
@[simp] theorem onSettle_inReset (s : State) (f : Settle → Settle) : (onSettle s f).inReset = s.inReset := rfl
@[simp] theorem onSettle_holdoffs (s : State) (f : Settle → Settle) : (onSettle s f).holdoffs = s.holdoffs := rfl
@[simp] theorem onSettle_levels (s : State) (f : Settle → Settle) : (onSettle s f).levels = s.levels := rfl
@[simp] theorem onSettle_irq0 (s : State) (f : Settle → Settle) : (onSettle s f).irq0 = s.irq0 := rfl
@[simp] theorem onSettle_irq1 (s : State) (f : Settle → Settle) : (onSettle s f).irq1 = s.irq1 := rfl
@[simp] theorem onSettle_results (s : State) (f : Settle → Settle) : (onSettle s f).results = s.results := rfl
@[simp] theorem onSettle_sec (s : State) (f : Settle → Settle) : (onSettle s f).sec = s.sec := rfl
@[simp] theorem onSettle_clk (s : State) (f : Settle → Settle) : (onSettle s f).clk = s.clk := rfl
@[simp] theorem onSettle_ft (s : State) (f : Settle → Settle) : (onSettle s f).ft = s.ft := rfl
@[simp] theorem onSettle_tat (s : State) (f : Settle → Settle) : (onSettle s f).tat = s.tat := rfl
@[simp] theorem onSettle_evf (s : State) (f : Settle → Settle) : (onSettle s f).evf = s.evf := rfl
@[simp] theorem onSettle_ports (s : State) (f : Settle → Settle) : (onSettle s f).ports = s.ports := rfl
@[simp] theorem onSettle_snap (s : State) (f : Settle → Settle) : (onSettle s f).snap = s.snap := rfl
@[simp] theorem onSettle_fratra (s : State) (f : Settle → Settle) : (onSettle s f).fratra = s.fratra := rfl
@[simp] theorem onSettle_ftl (s : State) (f : Settle → Settle) : (onSettle s f).ftl = s.ftl := rfl
@[simp] theorem onSettle_hrv (s : State) (f : Settle → Settle) : (onSettle s f).hrv = s.hrv := rfl
@[simp] theorem onSettle_acd (s : State) (f : Settle → Settle) : (onSettle s f).acd = s.acd := rfl
@[simp] theorem onSettle_hub (s : State) (f : Settle → Settle) : (onSettle s f).hub = s.hub := rfl
@[simp] theorem onSettle_bus (s : State) (f : Settle → Settle) : (onSettle s f).bus = s.bus := rfl
@[simp] theorem onSettle_aqe (s : State) (f : Settle → Settle) : (onSettle s f).aqe = s.aqe := rfl
@[simp] theorem onSettle_usb (s : State) (f : Settle → Settle) : (onSettle s f).usb = s.usb := rfl
@[simp] theorem onSettle_freeCtr (s : State) (f : Settle → Settle) : (onSettle s f).freeCtr = s.freeCtr := rfl
@[simp] theorem onSettle_pending (s : State) (f : Settle → Settle) : (onSettle s f).pending = s.pending := rfl
@[simp] theorem onSettle_pwr (s : State) (f : Settle → Settle) : (onSettle s f).pwr = { s.pwr with settle := s.pwr.settle.map f } := rfl

/-! `onRun` changes `hrv`. -/

@[simp] theorem onRun_regs (s : State) (f : HarvestRun → HarvestRun) : (onRun s f).regs = s.regs := rfl
@[simp] theorem onRun_ctrs (s : State) (f : HarvestRun → HarvestRun) : (onRun s f).ctrs = s.ctrs := rfl
@[simp] theorem onRun_shadows (s : State) (f : HarvestRun → HarvestRun) : (onRun s f).shadows = s.shadows := rfl
@[simp] theorem onRun_inReset (s : State) (f : HarvestRun → HarvestRun) : (onRun s f).inReset = s.inReset := rfl
@[simp] theorem onRun_holdoffs (s : State) (f : HarvestRun → HarvestRun) : (onRun s f).holdoffs = s.holdoffs := rfl
@[simp] theorem onRun_levels (s : State) (f : HarvestRun → HarvestRun) : (onRun s f).levels = s.levels := rfl
@[simp] theorem onRun_irq0 (s : State) (f : HarvestRun → HarvestRun) : (onRun s f).irq0 = s.irq0 := rfl
@[simp] theorem onRun_irq1 (s : State) (f : HarvestRun → HarvestRun) : (onRun s f).irq1 = s.irq1 := rfl
@[simp] theorem onRun_results (s : State) (f : HarvestRun → HarvestRun) : (onRun s f).results = s.results := rfl
@[simp] theorem onRun_sec (s : State) (f : HarvestRun → HarvestRun) : (onRun s f).sec = s.sec := rfl
@[simp] theorem onRun_clk (s : State) (f : HarvestRun → HarvestRun) : (onRun s f).clk = s.clk := rfl
@[simp] theorem onRun_ft (s : State) (f : HarvestRun → HarvestRun) : (onRun s f).ft = s.ft := rfl
@[simp] theorem onRun_tat (s : State) (f : HarvestRun → HarvestRun) : (onRun s f).tat = s.tat := rfl
@[simp] theorem onRun_pwr (s : State) (f : HarvestRun → HarvestRun) : (onRun s f).pwr = s.pwr := rfl
@[simp] theorem onRun_evf (s : State) (f : HarvestRun → HarvestRun) : (onRun s f).evf = s.evf := rfl
@[simp] theorem onRun_ports (s : State) (f : HarvestRun → HarvestRun) : (onRun s f).ports = s.ports := rfl
@[simp] theorem onRun_snap (s : State) (f : HarvestRun → HarvestRun) : (onRun s f).snap = s.snap := rfl
@[simp] theorem onRun_fratra (s : State) (f : HarvestRun → HarvestRun) : (onRun s f).fratra = s.fratra := rfl
@[simp] theorem onRun_ftl (s : State) (f : HarvestRun → HarvestRun) : (onRun s f).ftl = s.ftl := rfl
@[simp] theorem onRun_acd (s : State) (f : HarvestRun → HarvestRun) : (onRun s f).acd = s.acd := rfl
@[simp] theorem onRun_hub (s : State) (f : HarvestRun → HarvestRun) : (onRun s f).hub = s.hub := rfl
@[simp] theorem onRun_bus (s : State) (f : HarvestRun → HarvestRun) : (onRun s f).bus = s.bus := rfl
@[simp] theorem onRun_aqe (s : State) (f : HarvestRun → HarvestRun) : (onRun s f).aqe = s.aqe := rfl
@[simp] theorem onRun_usb (s : State) (f : HarvestRun → HarvestRun) : (onRun s f).usb = s.usb := rfl
@[simp] theorem onRun_freeCtr (s : State) (f : HarvestRun → HarvestRun) : (onRun s f).freeCtr = s.freeCtr := rfl
@[simp] theorem onRun_pending (s : State) (f : HarvestRun → HarvestRun) : (onRun s f).pending = s.pending := rfl
@[simp] theorem onRun_hrv (s : State) (f : HarvestRun → HarvestRun) : (onRun s f).hrv = { s.hrv with run := s.hrv.run.map f } := rfl

/-! `onLane` changes `acd`. -/

@[simp] theorem onLane_regs (s : State) (n : Nat) (f : LaneState → LaneState) : (onLane s n f).regs = s.regs := rfl
@[simp] theorem onLane_ctrs (s : State) (n : Nat) (f : LaneState → LaneState) : (onLane s n f).ctrs = s.ctrs := rfl
@[simp] theorem onLane_shadows (s : State) (n : Nat) (f : LaneState → LaneState) : (onLane s n f).shadows = s.shadows := rfl
@[simp] theorem onLane_inReset (s : State) (n : Nat) (f : LaneState → LaneState) : (onLane s n f).inReset = s.inReset := rfl
@[simp] theorem onLane_holdoffs (s : State) (n : Nat) (f : LaneState → LaneState) : (onLane s n f).holdoffs = s.holdoffs := rfl
@[simp] theorem onLane_levels (s : State) (n : Nat) (f : LaneState → LaneState) : (onLane s n f).levels = s.levels := rfl
@[simp] theorem onLane_irq0 (s : State) (n : Nat) (f : LaneState → LaneState) : (onLane s n f).irq0 = s.irq0 := rfl
@[simp] theorem onLane_irq1 (s : State) (n : Nat) (f : LaneState → LaneState) : (onLane s n f).irq1 = s.irq1 := rfl
@[simp] theorem onLane_results (s : State) (n : Nat) (f : LaneState → LaneState) : (onLane s n f).results = s.results := rfl
@[simp] theorem onLane_sec (s : State) (n : Nat) (f : LaneState → LaneState) : (onLane s n f).sec = s.sec := rfl
@[simp] theorem onLane_clk (s : State) (n : Nat) (f : LaneState → LaneState) : (onLane s n f).clk = s.clk := rfl
@[simp] theorem onLane_ft (s : State) (n : Nat) (f : LaneState → LaneState) : (onLane s n f).ft = s.ft := rfl
@[simp] theorem onLane_tat (s : State) (n : Nat) (f : LaneState → LaneState) : (onLane s n f).tat = s.tat := rfl
@[simp] theorem onLane_pwr (s : State) (n : Nat) (f : LaneState → LaneState) : (onLane s n f).pwr = s.pwr := rfl
@[simp] theorem onLane_evf (s : State) (n : Nat) (f : LaneState → LaneState) : (onLane s n f).evf = s.evf := rfl
@[simp] theorem onLane_ports (s : State) (n : Nat) (f : LaneState → LaneState) : (onLane s n f).ports = s.ports := rfl
@[simp] theorem onLane_snap (s : State) (n : Nat) (f : LaneState → LaneState) : (onLane s n f).snap = s.snap := rfl
@[simp] theorem onLane_fratra (s : State) (n : Nat) (f : LaneState → LaneState) : (onLane s n f).fratra = s.fratra := rfl
@[simp] theorem onLane_ftl (s : State) (n : Nat) (f : LaneState → LaneState) : (onLane s n f).ftl = s.ftl := rfl
@[simp] theorem onLane_hrv (s : State) (n : Nat) (f : LaneState → LaneState) : (onLane s n f).hrv = s.hrv := rfl
@[simp] theorem onLane_hub (s : State) (n : Nat) (f : LaneState → LaneState) : (onLane s n f).hub = s.hub := rfl
@[simp] theorem onLane_bus (s : State) (n : Nat) (f : LaneState → LaneState) : (onLane s n f).bus = s.bus := rfl
@[simp] theorem onLane_aqe (s : State) (n : Nat) (f : LaneState → LaneState) : (onLane s n f).aqe = s.aqe := rfl
@[simp] theorem onLane_usb (s : State) (n : Nat) (f : LaneState → LaneState) : (onLane s n f).usb = s.usb := rfl
@[simp] theorem onLane_freeCtr (s : State) (n : Nat) (f : LaneState → LaneState) : (onLane s n f).freeCtr = s.freeCtr := rfl
@[simp] theorem onLane_pending (s : State) (n : Nat) (f : LaneState → LaneState) : (onLane s n f).pending = s.pending := rfl

/-! `onI2c` changes `bus`. -/

@[simp] theorem onI2c_regs (s : State) (b : Nat) (f : I2cState → I2cState) : (onI2c s b f).regs = s.regs := rfl
@[simp] theorem onI2c_ctrs (s : State) (b : Nat) (f : I2cState → I2cState) : (onI2c s b f).ctrs = s.ctrs := rfl
@[simp] theorem onI2c_shadows (s : State) (b : Nat) (f : I2cState → I2cState) : (onI2c s b f).shadows = s.shadows := rfl
@[simp] theorem onI2c_inReset (s : State) (b : Nat) (f : I2cState → I2cState) : (onI2c s b f).inReset = s.inReset := rfl
@[simp] theorem onI2c_holdoffs (s : State) (b : Nat) (f : I2cState → I2cState) : (onI2c s b f).holdoffs = s.holdoffs := rfl
@[simp] theorem onI2c_levels (s : State) (b : Nat) (f : I2cState → I2cState) : (onI2c s b f).levels = s.levels := rfl
@[simp] theorem onI2c_irq0 (s : State) (b : Nat) (f : I2cState → I2cState) : (onI2c s b f).irq0 = s.irq0 := rfl
@[simp] theorem onI2c_irq1 (s : State) (b : Nat) (f : I2cState → I2cState) : (onI2c s b f).irq1 = s.irq1 := rfl
@[simp] theorem onI2c_results (s : State) (b : Nat) (f : I2cState → I2cState) : (onI2c s b f).results = s.results := rfl
@[simp] theorem onI2c_sec (s : State) (b : Nat) (f : I2cState → I2cState) : (onI2c s b f).sec = s.sec := rfl
@[simp] theorem onI2c_clk (s : State) (b : Nat) (f : I2cState → I2cState) : (onI2c s b f).clk = s.clk := rfl
@[simp] theorem onI2c_ft (s : State) (b : Nat) (f : I2cState → I2cState) : (onI2c s b f).ft = s.ft := rfl
@[simp] theorem onI2c_tat (s : State) (b : Nat) (f : I2cState → I2cState) : (onI2c s b f).tat = s.tat := rfl
@[simp] theorem onI2c_pwr (s : State) (b : Nat) (f : I2cState → I2cState) : (onI2c s b f).pwr = s.pwr := rfl
@[simp] theorem onI2c_evf (s : State) (b : Nat) (f : I2cState → I2cState) : (onI2c s b f).evf = s.evf := rfl
@[simp] theorem onI2c_ports (s : State) (b : Nat) (f : I2cState → I2cState) : (onI2c s b f).ports = s.ports := rfl
@[simp] theorem onI2c_snap (s : State) (b : Nat) (f : I2cState → I2cState) : (onI2c s b f).snap = s.snap := rfl
@[simp] theorem onI2c_fratra (s : State) (b : Nat) (f : I2cState → I2cState) : (onI2c s b f).fratra = s.fratra := rfl
@[simp] theorem onI2c_ftl (s : State) (b : Nat) (f : I2cState → I2cState) : (onI2c s b f).ftl = s.ftl := rfl
@[simp] theorem onI2c_hrv (s : State) (b : Nat) (f : I2cState → I2cState) : (onI2c s b f).hrv = s.hrv := rfl
@[simp] theorem onI2c_acd (s : State) (b : Nat) (f : I2cState → I2cState) : (onI2c s b f).acd = s.acd := rfl
@[simp] theorem onI2c_hub (s : State) (b : Nat) (f : I2cState → I2cState) : (onI2c s b f).hub = s.hub := rfl
@[simp] theorem onI2c_aqe (s : State) (b : Nat) (f : I2cState → I2cState) : (onI2c s b f).aqe = s.aqe := rfl
@[simp] theorem onI2c_usb (s : State) (b : Nat) (f : I2cState → I2cState) : (onI2c s b f).usb = s.usb := rfl
@[simp] theorem onI2c_freeCtr (s : State) (b : Nat) (f : I2cState → I2cState) : (onI2c s b f).freeCtr = s.freeCtr := rfl
@[simp] theorem onI2c_pending (s : State) (b : Nat) (f : I2cState → I2cState) : (onI2c s b f).pending = s.pending := rfl

/-! `onUart` changes `bus`. -/

@[simp] theorem onUart_regs (s : State) (u : Nat) (f : UartState → UartState) : (onUart s u f).regs = s.regs := rfl
@[simp] theorem onUart_ctrs (s : State) (u : Nat) (f : UartState → UartState) : (onUart s u f).ctrs = s.ctrs := rfl
@[simp] theorem onUart_shadows (s : State) (u : Nat) (f : UartState → UartState) : (onUart s u f).shadows = s.shadows := rfl
@[simp] theorem onUart_inReset (s : State) (u : Nat) (f : UartState → UartState) : (onUart s u f).inReset = s.inReset := rfl
@[simp] theorem onUart_holdoffs (s : State) (u : Nat) (f : UartState → UartState) : (onUart s u f).holdoffs = s.holdoffs := rfl
@[simp] theorem onUart_levels (s : State) (u : Nat) (f : UartState → UartState) : (onUart s u f).levels = s.levels := rfl
@[simp] theorem onUart_irq0 (s : State) (u : Nat) (f : UartState → UartState) : (onUart s u f).irq0 = s.irq0 := rfl
@[simp] theorem onUart_irq1 (s : State) (u : Nat) (f : UartState → UartState) : (onUart s u f).irq1 = s.irq1 := rfl
@[simp] theorem onUart_results (s : State) (u : Nat) (f : UartState → UartState) : (onUart s u f).results = s.results := rfl
@[simp] theorem onUart_sec (s : State) (u : Nat) (f : UartState → UartState) : (onUart s u f).sec = s.sec := rfl
@[simp] theorem onUart_clk (s : State) (u : Nat) (f : UartState → UartState) : (onUart s u f).clk = s.clk := rfl
@[simp] theorem onUart_ft (s : State) (u : Nat) (f : UartState → UartState) : (onUart s u f).ft = s.ft := rfl
@[simp] theorem onUart_tat (s : State) (u : Nat) (f : UartState → UartState) : (onUart s u f).tat = s.tat := rfl
@[simp] theorem onUart_pwr (s : State) (u : Nat) (f : UartState → UartState) : (onUart s u f).pwr = s.pwr := rfl
@[simp] theorem onUart_evf (s : State) (u : Nat) (f : UartState → UartState) : (onUart s u f).evf = s.evf := rfl
@[simp] theorem onUart_ports (s : State) (u : Nat) (f : UartState → UartState) : (onUart s u f).ports = s.ports := rfl
@[simp] theorem onUart_snap (s : State) (u : Nat) (f : UartState → UartState) : (onUart s u f).snap = s.snap := rfl
@[simp] theorem onUart_fratra (s : State) (u : Nat) (f : UartState → UartState) : (onUart s u f).fratra = s.fratra := rfl
@[simp] theorem onUart_ftl (s : State) (u : Nat) (f : UartState → UartState) : (onUart s u f).ftl = s.ftl := rfl
@[simp] theorem onUart_hrv (s : State) (u : Nat) (f : UartState → UartState) : (onUart s u f).hrv = s.hrv := rfl
@[simp] theorem onUart_acd (s : State) (u : Nat) (f : UartState → UartState) : (onUart s u f).acd = s.acd := rfl
@[simp] theorem onUart_hub (s : State) (u : Nat) (f : UartState → UartState) : (onUart s u f).hub = s.hub := rfl
@[simp] theorem onUart_aqe (s : State) (u : Nat) (f : UartState → UartState) : (onUart s u f).aqe = s.aqe := rfl
@[simp] theorem onUart_usb (s : State) (u : Nat) (f : UartState → UartState) : (onUart s u f).usb = s.usb := rfl
@[simp] theorem onUart_freeCtr (s : State) (u : Nat) (f : UartState → UartState) : (onUart s u f).freeCtr = s.freeCtr := rfl
@[simp] theorem onUart_pending (s : State) (u : Nat) (f : UartState → UartState) : (onUart s u f).pending = s.pending := rfl

/-! `onRail` changes `bus`. -/

@[simp] theorem onRail_regs (s : State) (r : Nat) (f : RailState → RailState) : (onRail s r f).regs = s.regs := rfl
@[simp] theorem onRail_ctrs (s : State) (r : Nat) (f : RailState → RailState) : (onRail s r f).ctrs = s.ctrs := rfl
@[simp] theorem onRail_shadows (s : State) (r : Nat) (f : RailState → RailState) : (onRail s r f).shadows = s.shadows := rfl
@[simp] theorem onRail_inReset (s : State) (r : Nat) (f : RailState → RailState) : (onRail s r f).inReset = s.inReset := rfl
@[simp] theorem onRail_holdoffs (s : State) (r : Nat) (f : RailState → RailState) : (onRail s r f).holdoffs = s.holdoffs := rfl
@[simp] theorem onRail_levels (s : State) (r : Nat) (f : RailState → RailState) : (onRail s r f).levels = s.levels := rfl
@[simp] theorem onRail_irq0 (s : State) (r : Nat) (f : RailState → RailState) : (onRail s r f).irq0 = s.irq0 := rfl
@[simp] theorem onRail_irq1 (s : State) (r : Nat) (f : RailState → RailState) : (onRail s r f).irq1 = s.irq1 := rfl
@[simp] theorem onRail_results (s : State) (r : Nat) (f : RailState → RailState) : (onRail s r f).results = s.results := rfl
@[simp] theorem onRail_sec (s : State) (r : Nat) (f : RailState → RailState) : (onRail s r f).sec = s.sec := rfl
@[simp] theorem onRail_clk (s : State) (r : Nat) (f : RailState → RailState) : (onRail s r f).clk = s.clk := rfl
@[simp] theorem onRail_ft (s : State) (r : Nat) (f : RailState → RailState) : (onRail s r f).ft = s.ft := rfl
@[simp] theorem onRail_tat (s : State) (r : Nat) (f : RailState → RailState) : (onRail s r f).tat = s.tat := rfl
@[simp] theorem onRail_pwr (s : State) (r : Nat) (f : RailState → RailState) : (onRail s r f).pwr = s.pwr := rfl
@[simp] theorem onRail_evf (s : State) (r : Nat) (f : RailState → RailState) : (onRail s r f).evf = s.evf := rfl
@[simp] theorem onRail_ports (s : State) (r : Nat) (f : RailState → RailState) : (onRail s r f).ports = s.ports := rfl
@[simp] theorem onRail_snap (s : State) (r : Nat) (f : RailState → RailState) : (onRail s r f).snap = s.snap := rfl
@[simp] theorem onRail_fratra (s : State) (r : Nat) (f : RailState → RailState) : (onRail s r f).fratra = s.fratra := rfl
@[simp] theorem onRail_ftl (s : State) (r : Nat) (f : RailState → RailState) : (onRail s r f).ftl = s.ftl := rfl
@[simp] theorem onRail_hrv (s : State) (r : Nat) (f : RailState → RailState) : (onRail s r f).hrv = s.hrv := rfl
@[simp] theorem onRail_acd (s : State) (r : Nat) (f : RailState → RailState) : (onRail s r f).acd = s.acd := rfl
@[simp] theorem onRail_hub (s : State) (r : Nat) (f : RailState → RailState) : (onRail s r f).hub = s.hub := rfl
@[simp] theorem onRail_aqe (s : State) (r : Nat) (f : RailState → RailState) : (onRail s r f).aqe = s.aqe := rfl
@[simp] theorem onRail_usb (s : State) (r : Nat) (f : RailState → RailState) : (onRail s r f).usb = s.usb := rfl
@[simp] theorem onRail_freeCtr (s : State) (r : Nat) (f : RailState → RailState) : (onRail s r f).freeCtr = s.freeCtr := rfl
@[simp] theorem onRail_pending (s : State) (r : Nat) (f : RailState → RailState) : (onRail s r f).pending = s.pending := rfl

/-! `onDn` changes `usb`. -/

@[simp] theorem onDn_regs (s : State) (n : Nat) (f : DnPort → DnPort) : (onDn s n f).regs = s.regs := rfl
@[simp] theorem onDn_ctrs (s : State) (n : Nat) (f : DnPort → DnPort) : (onDn s n f).ctrs = s.ctrs := rfl
@[simp] theorem onDn_shadows (s : State) (n : Nat) (f : DnPort → DnPort) : (onDn s n f).shadows = s.shadows := rfl
@[simp] theorem onDn_inReset (s : State) (n : Nat) (f : DnPort → DnPort) : (onDn s n f).inReset = s.inReset := rfl
@[simp] theorem onDn_holdoffs (s : State) (n : Nat) (f : DnPort → DnPort) : (onDn s n f).holdoffs = s.holdoffs := rfl
@[simp] theorem onDn_levels (s : State) (n : Nat) (f : DnPort → DnPort) : (onDn s n f).levels = s.levels := rfl
@[simp] theorem onDn_irq0 (s : State) (n : Nat) (f : DnPort → DnPort) : (onDn s n f).irq0 = s.irq0 := rfl
@[simp] theorem onDn_irq1 (s : State) (n : Nat) (f : DnPort → DnPort) : (onDn s n f).irq1 = s.irq1 := rfl
@[simp] theorem onDn_results (s : State) (n : Nat) (f : DnPort → DnPort) : (onDn s n f).results = s.results := rfl
@[simp] theorem onDn_sec (s : State) (n : Nat) (f : DnPort → DnPort) : (onDn s n f).sec = s.sec := rfl
@[simp] theorem onDn_clk (s : State) (n : Nat) (f : DnPort → DnPort) : (onDn s n f).clk = s.clk := rfl
@[simp] theorem onDn_ft (s : State) (n : Nat) (f : DnPort → DnPort) : (onDn s n f).ft = s.ft := rfl
@[simp] theorem onDn_tat (s : State) (n : Nat) (f : DnPort → DnPort) : (onDn s n f).tat = s.tat := rfl
@[simp] theorem onDn_pwr (s : State) (n : Nat) (f : DnPort → DnPort) : (onDn s n f).pwr = s.pwr := rfl
@[simp] theorem onDn_evf (s : State) (n : Nat) (f : DnPort → DnPort) : (onDn s n f).evf = s.evf := rfl
@[simp] theorem onDn_ports (s : State) (n : Nat) (f : DnPort → DnPort) : (onDn s n f).ports = s.ports := rfl
@[simp] theorem onDn_snap (s : State) (n : Nat) (f : DnPort → DnPort) : (onDn s n f).snap = s.snap := rfl
@[simp] theorem onDn_fratra (s : State) (n : Nat) (f : DnPort → DnPort) : (onDn s n f).fratra = s.fratra := rfl
@[simp] theorem onDn_ftl (s : State) (n : Nat) (f : DnPort → DnPort) : (onDn s n f).ftl = s.ftl := rfl
@[simp] theorem onDn_hrv (s : State) (n : Nat) (f : DnPort → DnPort) : (onDn s n f).hrv = s.hrv := rfl
@[simp] theorem onDn_acd (s : State) (n : Nat) (f : DnPort → DnPort) : (onDn s n f).acd = s.acd := rfl
@[simp] theorem onDn_hub (s : State) (n : Nat) (f : DnPort → DnPort) : (onDn s n f).hub = s.hub := rfl
@[simp] theorem onDn_bus (s : State) (n : Nat) (f : DnPort → DnPort) : (onDn s n f).bus = s.bus := rfl
@[simp] theorem onDn_aqe (s : State) (n : Nat) (f : DnPort → DnPort) : (onDn s n f).aqe = s.aqe := rfl
@[simp] theorem onDn_freeCtr (s : State) (n : Nat) (f : DnPort → DnPort) : (onDn s n f).freeCtr = s.freeCtr := rfl
@[simp] theorem onDn_pending (s : State) (n : Nat) (f : DnPort → DnPort) : (onDn s n f).pending = s.pending := rfl

end Sys2Proof.Machine
end

