-- ==== Sys2Proof/Laws/Access.lean ====
section
/-! SUPPORT. Laws/Access.lean: a served access through the register window, said once; and what answering, releasing
pins and setting no flag leave as it was. -/

namespace Sys2Proof.Machine

theorem pageOf_addr {page off : Nat} (hp : page < 4096) (ho : off < 4096) : pageOf (addr page off) = page := by
  unfold pageOf addr
  omega

theorem offOf_addr {page off : Nat} (ho : off < 4096) (h4 : off % 4 = 0) : offOf (addr page off) = off := by
  unfold offOf addr
  omega

@[simp] theorem lastAnswer_answerAcc (s : State) (p : Path) (c : Nat) (w : Word) :
    lastAnswer (answerAcc s p c w) p = { code := c, value := w } := storeLook_put_self _ _ _ _

/-- A write that no table entry makes to FT_CMD is judged and applied, and nothing more. -/
theorem regWriteAcc_judged {s : State} {r : Req} {a : Nat} (w : Word) (h : pathServed s r.path = true)
    (hf : r.path ≠ .tat ∨ isFtCmd a = false) : regWriteAcc s r a w = writeJudged s r a w := by
  unfold regWriteAcc
  rcases hf with hf | hf <;> simp [h, hf]

theorem isFtCmd_addr {page off : Nat} (hp : page < 4096) (ho : off < 4096) (h4 : off % 4 = 0)
    (h : page ≠ Pg.TIME ∨ off ≠ Off.TIME_FT_CMD) : isFtCmd (addr page off) = false := by
  unfold isFtCmd
  rw [pageOf_addr hp ho, offOf_addr ho h4]
  rcases h with h | h <;> simp [h]

/-- A served write is applied and answered 0. -/
theorem writeJudged_served {s : State} {r : Req} {page off : Nat} {w : Word} {b : Block} (hp : page < 4096)
    (ho : off < 4096) (h4 : off % 4 = 0) (h : Served s r page off w) (hb : blockOf page = some b) :
    writeJudged s r (addr page off) w = served (applyWrite s r b (page - blockPage b) page off w) r 0 := by
  obtain ⟨h1, h2, b', hb', h3, h5⟩ := h
  rw [hb] at hb'
  cases hb'
  unfold writeJudged served
  simp only [pageOf_addr hp ho, offOf_addr ho h4, h2, hb, h3, h5]
  simp

/-- A served write of a register, but for one of FT_CMD by a table entry. -/
theorem regWriteAcc_served {s : State} {r : Req} {page off : Nat} {w : Word} {b : Block} (hp : page < 4096)
    (ho : off < 4096) (h4 : off % 4 = 0) (h : Served s r page off w) (hb : blockOf page = some b)
    (hf : r.path ≠ .tat ∨ page ≠ Pg.TIME ∨ off ≠ Off.TIME_FT_CMD) :
    regWriteAcc s r (addr page off) w = served (applyWrite s r b (page - blockPage b) page off w) r 0 := by
  rw [regWriteAcc_judged w h.1 (hf.imp_right (isFtCmd_addr hp ho h4)), writeJudged_served hp ho h4 h hb]

/-- A served read returns what `readValue` says; a locked-out session nonce is not served. -/
theorem regReadAcc_served {s : State} {r : Req} {page off : Nat} {b : Block} (hp : page < 4096) (ho : off < 4096)
    (h4 : off % 4 = 0) (h : ServedRead s r page off) (hb : blockOf page = some b)
    (hn : ¬ (b = .sec ∧ off = Off.SEC_SESS_NONCE 0 ∧ s.sec.lockout = true)) :
    regReadAcc s r (addr page off) =
      served (readValue s r.path b (page - blockPage b) page off).2 r (readValue s r.path b (page - blockPage b) page off).1 := by
  obtain ⟨h1, h2, b', hb', h3⟩ := h
  rw [hb] at hb'
  cases hb'
  unfold regReadAcc served
  simp only [pageOf_addr hp ho, offOf_addr ho h4, h1, h2, hb, h3]
  simp [hn]

/-- An access on a path that is switched off or not yet open. -/
theorem regWriteAcc_pathOff {s : State} {r : Req} {page off : Nat} {w : Word} (hp : page < 4096) (ho : off < 4096)
    (h4 : off % 4 = 0) (h : pathServed s r.path = true) (hc : pathCode s r page ≠ 0) :
    regWriteAcc s r (addr page off) w = rejectAcc s r page off (pathCode s r page) false := by
  have hj : writeJudged s r (addr page off) w = rejectAcc s r page off (pathCode s r page) false := by
    unfold writeJudged
    simp [pageOf_addr hp ho, offOf_addr ho h4, hc]
  unfold regWriteAcc
  simp only [hj, h, Bool.not_true, Bool.false_eq_true, if_false]
  refine if_neg fun hx => hc ?_
  have := hx.2.2
  rw [← hx.1] at this
  simpa [rejectAcc] using this

theorem regReadAcc_pathOff {s : State} {r : Req} {page off : Nat} (hp : page < 4096) (ho : off < 4096)
    (h4 : off % 4 = 0) (h : pathServed s r.path = true) (hc : pathCode s r page ≠ 0) :
    regReadAcc s r (addr page off) = rejectAcc s r page off (pathCode s r page) true := by
  unfold regReadAcc
  simp [pageOf_addr hp ho, offOf_addr ho h4, h, hc]

section
variable {x : Nat → Nat → Prop}

theorem Within.answerAcc {s t : State} (h : Within x s t) (p : Path) (c : Nat) (w : Word) :
    Within x (Machine.answerAcc s p c w) (Machine.answerAcc t p c w) := by
  refine ⟨?_, h.regs, h.flags, h.fresh, h.ctrs, h.ports, h.tens⟩
  exact congrArg (fun v : State => { v with results := storePut v.results (pathNum p) {} { code := c, value := w } }) h.core

theorem Within.served {s t : State} (h : Within x s t) (r : Req) (w : Word) :
    Within x (Machine.served s r w) (Machine.served t r w) := h.answerAcc r.path 0 w

theorem within_releasePins (s : State) (page : Nat) : Within x s (releasePins s page) := by
  have h1 : ∀ a b : List Nat, Within x s { s with irq0 := a, irq1 := b } := fun a b => within_pins s a b
  unfold releasePins
  simp only []
  refine (h1 _ _).trans (within_ite _ (Within.refl _) (within_foldl _ _ ?_ _))
  intro s a _
  split
  · exact within_setHoldoff _ _ _ _
  · exact Within.refl _

/-- A flag mask of zero sets nothing. -/
theorem within_raise_zero (s : State) (page : Nat) : Within x (Machine.raise s page 0) s := by
  have h : Machine.raise s page 0 = setReg s page Off.IRQ_FLAG (s.reg page Off.IRQ_FLAG) := by simp [Machine.raise]
  refine ⟨rfl, fun a _ => ?_, fun p n hb => ?_, fun p n hb => .inl ?_, fun _ _ => rfl, fun _ => rfl, fun _ => rfl⟩
  · rw [h]
    by_cases ha : a = addr page Off.IRQ_FLAG
    · subst ha
      simp [Machine.setReg, State.reg]
    · simp [Machine.setReg, storeLook_put_ne _ ha]
  · rw [h] at hb
    by_cases hp : addr p Off.IRQ_FLAG = addr page Off.IRQ_FLAG
    · have : p = page := by unfold addr at hp; omega
      subst this
      simpa [State.bit] using hb
    · simpa [State.bit, reg_setReg_ne s _ hp] using hb
  · rw [h]
    by_cases hp : addr p Off.IRQ_FLAG = addr page Off.IRQ_FLAG
    · have : p = page := by unfold addr at hp; omega
      subst this
      simpa [State.bit] using hb
    · simpa [State.bit, reg_setReg_ne s _ hp] using hb

end

/-- A write of a block's own register: it is stored in its fields, and the block does what follows. -/
theorem applyWrite_row {s : State} {r : Req} {b : Block} {inst page off : Nat} {w : Word} {row : RegRow} {k : Nat}
    (hge : 0x100 ≤ off) (hr : rowOf b inst off = some (row, k)) :
    applyWrite s r b inst page off w =
      blockWritten s (setReg s page off (storedValue s r b page off row w)) r b inst off (s.reg page off)
        ((s.reg page off &&& ~~~ writeMask row) ||| (w &&& writeMask row)) := by
  have h : ∀ c, c < 0x100 → off ≠ c := by intro c hc; omega
  unfold applyWrite
  simp only [hr]
  rw [if_neg (h _ (by decide)), if_neg (h _ (by decide)), if_neg (h _ (by decide)), if_neg (h _ (by decide)),
    if_neg (h _ (by decide)), if_neg (h _ (by decide))]

/-- A served write of a block's own register. -/
theorem regWriteAcc_row {s : State} {r : Req} {page off : Nat} {w : Word} {b : Block} {row : RegRow} {k : Nat}
    (hp : page < 4096) (ho : off < 4096) (h4 : off % 4 = 0) (hge : 0x100 ≤ off) (h : Served s r page off w)
    (hb : blockOf page = some b) (hr : rowOf b (page - blockPage b) off = some (row, k))
    (hf : r.path ≠ .tat ∨ page ≠ Pg.TIME ∨ off ≠ Off.TIME_FT_CMD) :
    regWriteAcc s r (addr page off) w =
      served (blockWritten s (setReg s page off (storedValue s r b page off row w)) r b (page - blockPage b) off
        (s.reg page off) ((s.reg page off &&& ~~~ writeMask row) ||| (w &&& writeMask row))) r 0 := by
  rw [regWriteAcc_served hp ho h4 h hb hf, applyWrite_row hge hr]

/-- Only the tenant pages have rows of their own by instance. -/
theorem rowOf_eq {b : Block} (inst off : Nat) (h : b ≠ .ten) : rowOf b inst off = rowAt b off := by simp [rowOf, h]

/-- A bit inside the mask is the written one, a bit outside it the old one. -/
theorem bit_merge (old w m : Word) (n : Nat) :
    ((old &&& ~~~ m) ||| (w &&& m)).bit n = if m.bit n then w.bit n else old.bit n := by
  unfold Word.bit
  by_cases hn : n < 32
  · have hm : m[n] = m.getLsbD n := rfl
    cases h : m.getLsbD n <;> rw [h] at hm <;> simp [hn, hm]
  · simp [BitVec.getLsbD_of_ge _ _ (Nat.le_of_not_lt hn)]

/-- Words whose bits agree on a field agree on the field. -/
theorem fld_congr {v w : Word} {msb lsb : Nat} (h : ∀ n, lsb ≤ n → n ≤ msb → v.bit n = w.bit n) :
    v.fld msb lsb = w.fld msb lsb := by
  unfold Word.fld
  apply Nat.eq_of_testBit_eq
  intro i
  rw [Nat.testBit_mod_two_pow, Nat.testBit_mod_two_pow, Nat.testBit_shiftRight, Nat.testBit_shiftRight]
  by_cases hi : i < msb + 1 - lsb
  · have := h (lsb + i) (by omega) (by omega)
    simpa [hi, Word.bit, BitVec.getLsbD] using this
  · simp [hi]

/-- A field inside the mask is the written one. -/
theorem fld_merge {old w m : Word} {msb lsb : Nat} (h : ∀ n, lsb ≤ n → n ≤ msb → m.bit n = true) :
    ((old &&& ~~~ m) ||| (w &&& m)).fld msb lsb = w.fld msb lsb :=
  fld_congr fun n h1 h2 => by rw [bit_merge, h n h1 h2, if_pos rfl]

section
variable {x : Nat → Nat → Prop}

/-- Storing what a register holds changes nothing. -/
theorem within_setReg_same {s t : State} (h : Within x s t) (page off : Nat) :
    Within x s (Machine.setReg t page off (t.reg page off)) := by
  have hl : ∀ a, storeLook (Machine.setReg t page off (t.reg page off)).regs a (regReset a) =
      storeLook t.regs a (regReset a) := by
    intro a
    by_cases ha : a = addr page off
    · subst ha
      simp [Machine.setReg, State.reg]
    · simp [Machine.setReg, storeLook_put_ne _ ha]
  have hb : ∀ p o n, (Machine.setReg t page off (t.reg page off)).bit p o n = t.bit p o n := by
    intro p o n
    show (storeLook (Machine.setReg t page off (t.reg page off)).regs (addr p o) (regReset (addr p o))).bit n = _
    rw [hl]
    rfl
  refine ⟨h.core, fun a ha => (hl a).trans (h.regs a ha), fun p n hs => ?_, fun p n ht => ?_, h.ctrs, h.ports, h.tens⟩
  · rw [hb]
    exact h.flags p n hs
  · rw [hb] at ht
    exact h.fresh p n ht

end

/-! ## What a reset keeps -/

theorem storeFind_of_not_mem {α : Type} {m : Store α} {k : Nat} (h : k ∉ storeKeys m) : storeFind m k = none := by
  induction m with
  | nil => rfl
  | cons e m ih =>
    simp only [storeKeys, List.map_cons, List.mem_cons, not_or] at h
    simp [storeFind, Ne.symm h.1, ih h.2]

/-- Every register after `keepRegs`: the bits of the mask as they were, the others at their reset value. -/
theorem reg_keepRegs (mask : Nat → Word) (s : State) (a : Nat) :
    storeLook (keepRegs mask s).regs a (regReset a) =
      (storeLook s.regs a (regReset a) &&& mask a) ||| (regReset a &&& ~~~ mask a) := by
  have key : ∀ (l : List (Nat × Word)) (m : Store Word),
      storeLook (l.foldl (fun m e =>
        storePut m e.1 (regReset e.1) ((storeLook s.regs e.1 (regReset e.1) &&& mask e.1) ||| (regReset e.1 &&& ~~~ mask e.1))) m)
        a (regReset a) =
      if a ∈ l.map Prod.fst then (storeLook s.regs a (regReset a) &&& mask a) ||| (regReset a &&& ~~~ mask a)
      else storeLook m a (regReset a) := by
    intro l
    induction l with
    | nil => intro m; rfl
    | cons e l ih =>
      intro m
      rw [List.foldl_cons, ih, List.map_cons]
      by_cases h : a ∈ l.map Prod.fst
      · rw [if_pos h, if_pos (List.mem_cons_of_mem _ h)]
      · rw [if_neg h]
        by_cases he : a = e.1
        · subst he
          rw [if_pos (List.mem_cons_self ..), storeLook_put_self]
        · rw [if_neg (by simpa [he] using h), storeLook_put_ne _ he]
  show storeLook (s.regs.foldl _ []) a (regReset a) = _
  rw [key]
  split
  · rfl
  · rename_i h
    have hn : storeLook s.regs a (regReset a) = regReset a := by
      rw [storeLook, storeFind_of_not_mem h]
      rfl
    rw [hn]
    show regReset a = _
    ext i hi
    simp [← Bool.and_or_distrib_left]

end Sys2Proof.Machine
end

