-- ==== Sys2Proof/Laws/Pulse.lean ====
section
/-! SUPPORT. Laws/Pulse.lean: a pulse of the event fabric's producers makes offers and counts, and nothing else. -/

namespace Sys2Proof.Machine

/-- Everything but the offers under way and the counters of the EVF page is as it was. -/
def Pulsed (s t : State) : Prop :=
  (∃ o f c, t = { s with evf := { s.evf with offers := o, formed := f }, ctrs := c }) ∧
    ∀ a, a / 0x1000 ≠ Pg.EVF → storeLook t.ctrs a 0 = storeLook s.ctrs a 0

theorem Pulsed.refl (s : State) : Pulsed s s := ⟨⟨s.evf.offers, s.evf.formed, s.ctrs, rfl⟩, fun _ _ => rfl⟩

theorem Pulsed.trans {s t u : State} (h : Pulsed s t) (k : Pulsed t u) : Pulsed s u := by
  obtain ⟨⟨o, f, c, rfl⟩, h2⟩ := h
  obtain ⟨⟨o', f', c', rfl⟩, k2⟩ := k
  exact ⟨⟨o', f', c', rfl⟩, fun a ha => (k2 a ha).trans (h2 a ha)⟩

theorem pulsed_bumpBy (s : State) (off n : Nat) (h : off < 0x1000) : Pulsed s (bumpBy s Pg.EVF off n) := by
  refine ⟨⟨s.evf.offers, s.evf.formed, _, rfl⟩, fun a ha => storeLook_put_ne _ ?_ _ _ _⟩
  rintro rfl
  apply ha
  unfold addr
  omega

theorem pulsed_formEvent (s : State) (n k : Nat) (h : n < 48) : Pulsed s (formEvent s n k) := by
  have hc : ∀ j, j < 4 → chCtr n j < 0x1000 := by
    intro j hj
    unfold chCtr
    omega
  unfold formEvent
  simp only []
  have h1 : ∀ s : State, Pulsed s (bumpBy (bumpBy (bump s Pg.EVF 0x040) Pg.EVF 0x058 (k - 1)) Pg.EVF (chCtr n 0)
      (chConsumers s n).length) := fun s =>
    ((pulsed_bumpBy s 0x040 1 (by omega)).trans (pulsed_bumpBy _ 0x058 _ (by omega))).trans
      (pulsed_bumpBy _ _ _ (hc 0 (by omega)))
  have h0 : ∀ f, Pulsed s { s with evf := { s.evf with formed := f } } := fun f =>
    ⟨⟨s.evf.offers, f, s.ctrs, rfl⟩, fun _ _ => rfl⟩
  split
  · exact pulsed_bumpBy s 0x058 _ (by omega)
  split
  · refine ((h0 _).trans (h1 _)).trans ⟨⟨_, _, _, rfl⟩, fun _ _ => rfl⟩
  · exact ((h0 _).trans (h1 _)).trans ((pulsed_bumpBy _ _ _ (hc 3 (by omega))).trans (pulsed_bumpBy _ 0x050 _ (by omega)))

/-- What a pulse may touch. -/
theorem pulsed_pulse (s : State) (prods : List Nat) : Pulsed s (pulse s prods) := by
  unfold pulse
  have hl : ∀ n ∈ List.range 48, n < 48 := fun n hn => List.mem_range.1 hn
  revert hl
  generalize List.range 48 = l
  intro hl
  induction l generalizing s with
  | nil => exact Pulsed.refl s
  | cons n l ih =>
    simp only [List.foldl_cons]
    refine Pulsed.trans ?_ (ih _ fun m hm => hl m (by simp [hm]))
    split
    · exact pulsed_formEvent s n _ (hl n (by simp))
    · exact Pulsed.refl s

section
variable {s t : State} (h : Pulsed s t)
include h

theorem Pulsed.regs : t.regs = s.regs := by obtain ⟨⟨o, f, c, rfl⟩, -⟩ := h; rfl
theorem Pulsed.reg (page off : Nat) : t.reg page off = s.reg page off := by simp [State.reg, h.regs]
theorem Pulsed.ft : t.ft = s.ft := by obtain ⟨⟨o, f, c, rfl⟩, -⟩ := h; rfl
theorem Pulsed.clk : t.clk = s.clk := by obtain ⟨⟨o, f, c, rfl⟩, -⟩ := h; rfl
theorem Pulsed.hub : t.hub = s.hub := by obtain ⟨⟨o, f, c, rfl⟩, -⟩ := h; rfl
theorem Pulsed.pwr : t.pwr = s.pwr := by obtain ⟨⟨o, f, c, rfl⟩, -⟩ := h; rfl
theorem Pulsed.bus : t.bus = s.bus := by obtain ⟨⟨o, f, c, rfl⟩, -⟩ := h; rfl
theorem Pulsed.aqe : t.aqe = s.aqe := by obtain ⟨⟨o, f, c, rfl⟩, -⟩ := h; rfl
theorem Pulsed.tat : t.tat = s.tat := by obtain ⟨⟨o, f, c, rfl⟩, -⟩ := h; rfl
theorem Pulsed.fratra : t.fratra = s.fratra := by obtain ⟨⟨o, f, c, rfl⟩, -⟩ := h; rfl
theorem Pulsed.usb : t.usb = s.usb := by obtain ⟨⟨o, f, c, rfl⟩, -⟩ := h; rfl
theorem Pulsed.ports : t.ports = s.ports := by obtain ⟨⟨o, f, c, rfl⟩, -⟩ := h; rfl

end

end Sys2Proof.Machine
end

