-- ==== Sys2Proof/Laws/Turns.lean ====
section
/-! SUPPORT. Laws/Turns.lean: what a selection among backlogged tenants can answer (R221, R223), and whose turn a die queue gives
(Table 9.8). -/

namespace Sys2Proof.Machine

/-- Deficit round-robin serves a piece of the backlog, or nothing. -/
theorem drrPick_mem (noteW weight : Nat → Nat) (bl : List Backlog) (fuel : Nat) (d : Drr) {b : Backlog} {e : Drr}
    (h : drrPick noteW weight bl fuel d = (some b, e)) : b ∈ bl := by
  induction fuel generalizing d with
  | zero => simp [drrPick] at h
  | succ n ih =>
    simp only [drrPick] at h
    split at h
    · simp at h
    · split at h
      · exact ih _ h
      · split at h
        · split at h
          · simp at h
          · exact ih _ h
        · next c hc =>
          split at h
          · exact ih _ h
          · split at h
            · exact ih _ h
            · cases h
              exact (List.mem_filter.1 (List.mem_of_find?_eq_some hc)).1

/-- The selection of R221 serves a piece of the backlog, or nothing. -/
theorem selectUnit_mem (s : State) (kind : Nat) (bl : List Backlog) (d : Drr) {b : Backlog} {idle : Bool} {e : Drr}
    (h : selectUnit s kind bl d = (some (b, idle), e)) : b ∈ bl := by
  simp only [selectUnit] at h
  split at h
  · next t _ =>
    simp only [Prod.mk.injEq, Option.map_eq_some_iff] at h
    obtain ⟨⟨c, hc, rfl, rfl⟩, -⟩ := h
    exact (List.mem_filter.1 (List.mem_filter.1 (List.mem_of_find?_eq_some hc)).1).1
  · split at h
    · next c f hp =>
      simp only [Prod.mk.injEq, Option.some.injEq] at h
      obtain ⟨⟨rfl, -⟩, -⟩ := h
      exact (List.mem_filter.1 (drrPick_mem _ _ _ _ _ hp)).1
    · split at h
      · simp only [Prod.mk.injEq, Option.map_eq_some_iff] at h
        obtain ⟨⟨c, hc, rfl, rfl⟩, -⟩ := h
        exact (List.mem_filter.1 (List.mem_of_find?_eq_some hc)).1
      · simp at h

/-- A tenant is scheduled as Top, Heart or Base. -/
theorem schedNote_le (s : State) (n : Nat) : s.schedNote n ≤ 2 := by
  unfold State.schedNote
  split <;> omega

/-- The backlog of tenants at a die queue has no piece of upkeep. -/
theorem dieTenants_note {s : State} {lun : Nat} {own : Option (Nat × Nat)} {b : Backlog} (h : b ∈ dieTenants s lun own) :
    b.note ≤ 2 := by
  simp only [dieTenants, List.mem_map] at h
  obtain ⟨t, -, rfl⟩ := h
  exact schedNote_le s t

/-- Whether a die queue gives upkeep its turn, by the state in which its kind is served (Table 9.8), but in the round of
BACKGROUND. -/
theorem upkeepTurn_isSome (s : State) (lun kind cost : Nat) (h : upkeepRank s lun kind ≠ 1) :
    (upkeepTurn s lun (kind, cost)).isSome =
      !((upkeepRank s lun kind = 0 && !(dieTenants s lun none).isEmpty) ||
        (upkeepRank s lun kind = 2 && topWaits s (dieTenants s lun none))) := by
  simp only [upkeepTurn, dieSelect, h, ↓reduceIte]
  split
  · next b _ d hs =>
    split at hs
    · next hc =>
      have hb := dieTenants_note (selectUnit_mem _ _ _ _ hs)
      simp [hc, show b.note ≠ 3 by omega]
    · next hc =>
      simp only [Prod.mk.injEq, Option.some.injEq] at hs
      obtain ⟨⟨rfl, -⟩, -⟩ := hs
      simp [hc]
  · next d hs =>
    split at hs
    · next hc => simp [hc]
    · simp at hs

end Sys2Proof.Machine
end

