-- ==== Sys2Proof/WellFormed.lean ====
section
/-! DEFINITION. WellFormed.lean: which operands of a command name something LH-96 has (a page of 4,096, an address of 24
bits, a port of 4, a tenant of 64 and so on). A command whose operands are not well formed names nothing: its meaning
leaves the machine as it is. -/

namespace Sys2Proof

/-- The maker of an access names a tenant of Table 3.9. -/
def Req.wellFormed (r : Req) : Bool := decide (r.tenant < 64)

/-- The operands of a command name units of the block. -/
def wellFormed (i : Instr) : Bool :=
  match i with
  | .aonPowerOnReset _ => true
  | .aonPorRelease _ => true
  | .powerUp => true
  | .pgoodCoreRise => true
  | .pgoodTimeout => true
  | .retryWaitEnd => true
  | .pgoodStuck => true
  | .coreResetRelease => true
  | .refLoss => true
  | .refclkReturn => true
  | .pllRelock _ => true
  | .pgoodCoreLoss => true
  | .powerFailTrip => true
  | .glitch => true
  | .harvestLunDrop lun => decide (lun < 512)
  | .harvestProgFail lun => decide (lun < 512)
  | .harvestDone vEnd _ => decide (vEnd < 65536)
  | .park by_ _ => by_.wellFormed
  | .settleDrainLimit => true
  | .settleComplete _ => true
  | .resetNAssert => true
  | .resetNRelease _ => true
  | .warm by_ _ => by_.wellFormed
  | .wdtKick by_ _ => by_.wellFormed
  | .wdtWarn => true
  | .wdtExpire => true
  | .imageVerify _ => true
  | .populationDiscovery pop => decide (pop.luns.all fun e => e.1 < 512)
  | .recovery _ => true
  | .runEntry => true
  | .latenessPass => true
  | .step by_ _ => by_.wellFormed
  | .set by_ _ => by_.wellFormed
  | .stateLoad by_ _ => by_.wellFormed
  | .ftRdNs by_ => by_.wellFormed
  | .ftSecond => true
  | .tsyncInEdge phase => decide (phase < 32)
  | .tsyncOutPulse => true
  | .tsyncOutEnd => true
  | .syncTimeout => true
  | .corrRingRead by_ entry => decide (by_.wellFormed ∧ entry < 64)
  | .taggerRecalibrate _ => true
  | .taggerRecalDone => true
  | .tatFire => true
  | .aonActionArrival => true
  | .intervalClose => true
  | .read by_ _ => by_.wellFormed
  | .write by_ _ => by_.wellFormed
  | .cancel by_ _ => by_.wellFormed
  | .tatCfg by_ _ => by_.wellFormed
  | .registerWrite by_ address _ => decide (by_.wellFormed ∧ address < 2 ^ 24)
  | .errCodeRead by_ page => decide (by_.wellFormed ∧ page < 4096)
  | .counterRead by_ address => decide (by_.wellFormed ∧ address < 2 ^ 24)
  | .irqFlag by_ page _ => decide (by_.wellFormed ∧ page < 4096)
  | .irqForce by_ page _ => decide (by_.wellFormed ∧ page < 4096)
  | .irqEn by_ page _ => decide (by_.wellFormed ∧ page < 4096)
  | .coalTimerExpire page dest => decide (page < 4096 ∧ dest < 4)
  | .pageOwner by_ page _ => decide (by_.wellFormed ∧ page < 4096)
  | .softRst by_ page _ => decide (by_.wellFormed ∧ page < 4096)
  | .softRstDone page => decide (page < 4096)
  | .pageCtrlEn by_ page _ => decide (by_.wellFormed ∧ page < 4096)
  | .load by_ _ => by_.wellFormed
  | .generate by_ _ => by_.wellFormed
  | .zeroize by_ _ => by_.wellFormed
  | .check_ by_ _ => by_.wellFormed
  | .keyDone _ => true
  | .go by_ _ => by_.wellFormed
  | .sessNonceRead by_ => by_.wellFormed
  | .sessOpen by_ _ => by_.wellFormed
  | .sessClose by_ _ => by_.wellFormed
  | .sessIdleTimeout => true
  | .lockoutEnd => true
  | .portCfg by_ port _ => decide (by_.wellFormed ∧ port < 4)
  | .linkUp port _ => decide (port < 4)
  | .linkDown port _ _ => decide (port < 4)
  | .rxFrameStart port head => decide (port < 4 ∧ head.length ≤ 64)
  | .rxFrameEnd port _ _ => decide (port < 4)
  | .pause port time => decide (port < 4 ∧ time < 65536)
  | .pfc port _ times => decide (port < 4 ∧ times.length = 8 ∧ times.all (· < 65536))
  | .pauseExpire port prio => decide (port < 4 ∧ prio.all (· < 8))
  | .pauseRefresh port => decide (port < 4)
  | .txFrameDone port _ => decide (port < 4)
  | .txTsNs by_ port => decide (by_.wellFormed ∧ port < 4)
  | .save by_ _ => by_.wellFormed
  | .saveDone _ => true
  | .arrival => true
  | .progressResponse stream => decide (stream.tenant < 64)
  | .streamIdle stream => decide (stream.tenant < 64)
  | .get _ => true
  | .getRange _ => true
  | .put _ => true
  | .putIfAbsent _ => true
  | .append _ => true
  | .cas _ => true
  | .delete _ => true
  | .hold _ => true
  | .release _ => true
  | .aliasSet _ => true
  | .aliasSwapAt _ => true
  | .scan _ => true
  | .stat _ => true
  | .flush _ => true
  | .regAccess _ => true
  | .mailbox _ => true
  | .incidentEvent => true
  | .incClose => true
  | .tenCfg by_ tenant _ => decide (by_.wellFormed ∧ tenant < 64)
  | .tenBind by_ tenant _ => decide (by_.wellFormed ∧ tenant < 64)
  | .reset by_ tenant _ => decide (by_.wellFormed ∧ tenant < 64)
  | .resetDone tenant => decide (tenant < 64)
  | .purge by_ tenant _ => decide (by_.wellFormed ∧ tenant < 64)
  | .purgeDone tenant => decide (tenant < 64)
  | .writeBack _ => true
  | .programDone _ => true
  | .programFail _ => true
  | .eraseDone lun _ => decide (lun < 512)
  | .eraseFail lun _ => decide (lun < 512)
  | .codewordRead cw => decide (cw.lun < 512 ∧ cw.step ≤ 4)
  | .fold _ => true
  | .gleaning lun => decide (lun < 512)
  | .refresh lun => decide (lun < 512)
  | .wearMove lun => decide (lun < 512)
  | .switch lun => decide (lun < 512)
  | .gleanCfg by_ _ => by_.wellFormed
  | .nchRetrain by_ chan _ => decide (by_.wellFormed ∧ chan < 16)
  | .retrainDone chan _ => decide (chan < 16)
  | .dramUncorrectable _ _ => true
  | .rebuildDone => true
  | .patrolDone => true
  | .commandTimeout lun => decide (lun < 512)
  | .lunCmd by_ _ => by_.wellFormed
  | .identDone => true
  | .tempSample _ => true
  | .bankCheck _ => true
  | .bankMeasure _ => true
  | .ts1 set => decide (set.lane < 4)
  | .ts2 lane _ _ => decide (lane < 4)
  | .hello _ => true
  | .width width _ => decide ((width = 1 ∨ width = 2 ∨ width = 4))
  | .trainLimit => true
  | .rateDwell => true
  | .linkFlit flit => decide (flit.credits.length = 4)
  | .linkFlitSend _ => true
  | .replayTimeout => true
  | .lockLost lane => decide (lane < 4)
  | .autoWiden => true
  | .acdRetrain by_ _ => by_.wellFormed
  | .widthSet by_ _ => by_.wellFormed
  | .adopt by_ _ => by_.wellFormed
  | .takeover by_ _ => by_.wellFormed
  | .forget by_ _ => by_.wellFormed
  | .hbMiss => true
  | .retrainGraceExpire => true
  | .mirror tenant _ _ => decide (tenant < 64)
  | .mirrorAck tenant _ _ => decide (tenant < 64)
  | .leadMap _ => true
  | .notice kind _ _ => decide (kind < 256)
  | .incident tenant _ => decide (tenant < 64)
  | .portMacs macs _ => decide (macs.length = 4)
  | .relay carriage _ => decide (carriage.port < 4)
  | .keyReq ask => decide (ask.tenant < 64)
  | .keyData data => decide (data.tenant < 64)
  | .divList tenant _ _ => decide (tenant < 64)
  | .divEnd tenant _ => decide (tenant < 64)
  | .twinHeartbeatSend => true
  | .twinHeartbeat beat => decide (beat.port < 4)
  | .ethPathDown => true
  | .joinWaitExpire => true
  | .tickLo by_ => by_.wellFormed
  | .almCmpHi by_ alarm _ => decide (by_.wellFormed ∧ alarm < 4)
  | .almCmpLo by_ alarm _ => decide (by_.wellFormed ∧ alarm < 4)
  | .alarm alarm => decide (alarm < 4)
  | .taskDue task => decide (task < 16)
  | .nop => true
  | .i2cWr _ => true
  | .i2cRd _ => true
  | .i2cRegrd _ => true
  | .uartTx => true
  | .uartRx => true
  | .uartMatch => true
  | .adc => true
  | .gpiRd => true
  | .wait => true
  | .branch => true
  | .field_ => true
  | .uartStepTimeout => true
  | .debouncedEdge edges => decide (edges.all fun e => e.1 < 32)
  | .seqTimeout rec => decide (rec < 32)
  | .batchClose stream => decide (stream < 64)
  | .batchMove _ => true
  | .moveRetry => true
  | .wakeIn => true
  | .hostWakePulseEnd => true
  | .hostWakeRelease by_ _ => by_.wellFormed
  | .sillageMove _ => true
  | .alert bus => decide (bus < 2)
  | .alertRead bus _ _ => decide (bus < 2)
  | .alertRetry bus => decide (bus < 2)
  | .arbRetry => true
  | .busStuck bus _ _ => decide (bus < 2)
  | .pwrCycleEnd rail => decide (rail < 2)
  | .railSettleEnd rail _ => decide (rail < 2)
  | .clrStuck by_ bus _ => decide (by_.wellFormed ∧ bus < 2)
  | .railCtrl by_ _ => by_.wellFormed
  | .characterReceived uart _ => decide (uart < 4)
  | .frameIdle uart => decide (uart < 4)
  | .rxFlush by_ uart _ => decide (by_.wellFormed ∧ uart < 4)
  | .conversion code => decide (code < 4096)
  | .sequenceStart seq => decide (seq < 4)
  | .gpoPulseEnd gpo => decide (gpo < 8)
  | .arm by_ _ => by_.wellFormed
  | .aqeArm => true
  | .force by_ _ => by_.wellFormed
  | .stop by_ _ => by_.wellFormed
  | .taggedChange changes => decide (changes.all fun c => c.pin < 35 ∧ c.phase < 32)
  | .armTimeout => true
  | .recordEnd => true
  | .rearm => true
  | .trigOutPulseEnd => true
  | .segCmdFree by_ _ => by_.wellFormed
  | .recordMove _ _ => true
  | .chCfg by_ ch _ => decide (by_.wellFormed ∧ ch < 48)
  | .fire by_ ch _ => decide (by_.wellFormed ∧ ch < 48)
  | .offerTaken consumer channels => decide (consumer < 64 ∧ channels.all (· < 48))
  | .fcapRead by_ unit => decide (by_.wellFormed ∧ unit < 4)
  | .acapRead by_ unit => decide (by_.wellFormed ∧ unit < 4)
  | .vbusValid => true
  | .vbusInvalid => true
  | .busReset _ => true
  | .fsFallback => true
  | .suspend => true
  | .resume => true
  | .usbResumeWake => true
  | .remoteWake => true
  | .overcurrent port => decide (port < 2)
  | .portPower port _ => decide ((port = 0 ∨ port = 1 ∨ port = 3))
  | .deviceRemoteWakeup _ _ => true
  | .setConfiguration value => decide (value < 256)
  | .setFeatureEndpointHalt endpoint => decide ((endpoint = 1 ∨ endpoint = 0x81 ∨ endpoint = 0x82))
  | .clearFeatureEndpointHalt endpoint => decide ((endpoint = 1 ∨ endpoint = 0x81 ∨ endpoint = 0x82))
  | .regRead setup => decide (setup.length < 65536)
  | .regWrite setup _ => decide (setup.length < 65536)
  | .hkpMailboxOut setup _ => decide (setup.length < 65536)
  | .hkpMailboxIn setup => decide (setup.length < 65536)
  | .fwInfo => true
  | .imgBegin => true
  | .imgData => true
  | .imgEnd _ _ => true
  | .mboxDone => true
  | .mboxTimeout => true
  | .replyDiscard => true
  | .outPacket packet => decide (packet.lseq < 65536 ∧ packet.length < 65536 ∧ packet.ack < 65536)
  | .ackDelay => true
  | .seqReset by_ _ => by_.wellFormed
  | .aonPllLock => true
  | .warmResetHoldEnd _ => true
  | .lagHigh tenant => decide (tenant < 64)
  | .crcErr => true
  | .patrolOverdue => true
  | .scrubPass _ => true
  | .tempDerate _ => true
  | .startBit uart _ => decide (uart < 4)
  | .ocRelease port => decide (port < 2)

end Sys2Proof
end

