-- ==== Sys2Proof/Tests/Slice0.lean ====
section
/-! SUPPORT. Tests/Slice0.lean: ill-formed operands are refused; witnesses that the hypotheses of each claim are met; and small
tests of single commands, with their values worked out from the manual. -/

namespace Sys2Proof.Tests
open Sys2Proof.Machine

/-! ## Helpers -/

/-- An access by the HKP, by TC0 over Fratra, by TC0 and by tenant 1 over LMF. -/
def hk : Req := { path := .hkp }
def fr : Req := { path := .fratra }
def lm : Req := { path := .lmf }
def lm1 : Req := { path := .lmf, tenant := 1 }

/-- The power states, from reset on. -/
def inState (p : PState) : State := { pwr := { state := p, porHeld := false } }
def run : State := inState .run
def boot : State := inState .boot
def park : State := inState .park

/-- A state with a register written. -/
abbrev reg (s : State) (page off : Nat) (w : Word) : State := setReg s page off w

/-- A write is served, as a test. -/
def servedBool (s : State) (r : Req) (page off : Nat) (w : Word) : Bool :=
  pathServed s r.path && decide (pathCode s r page = 0) && match blockOf page with
    | some b => decide (admitWrite s r b (page - blockPage b) page off w = 0) &&
        decide (valueCode s r b (page - blockPage b) page off w = 0)
    | none => false

theorem served_ok {s : State} {r : Req} {page off : Nat} {w : Word} (h : servedBool s r page off w = true) :
    Served s r page off w := by
  unfold servedBool at h
  simp only [Bool.and_eq_true, decide_eq_true_eq] at h
  refine ⟨h.1.1, h.1.2, ?_⟩
  have h2 := h.2
  split at h2
  · rename_i b hb
    simp only [Bool.and_eq_true, decide_eq_true_eq] at h2
    exact ⟨b, hb, h2⟩
  · simp at h2

/-- A read is served, as a test. -/
def servedReadBool (s : State) (r : Req) (page off : Nat) : Bool :=
  pathServed s r.path && decide (pathCode s r page = 0) && match blockOf page with
    | some b => readAllowed s r b page off
    | none => false

theorem served_read_ok {s : State} {r : Req} {page off : Nat} (h : servedReadBool s r page off = true) :
    ServedRead s r page off := by
  unfold servedReadBool at h
  simp only [Bool.and_eq_true, decide_eq_true_eq] at h
  refine ⟨h.1.1, h.1.2, ?_⟩
  have h2 := h.2
  split at h2
  · rename_i b hb
    exact ⟨b, hb, h2⟩
  · simp at h2

/-! ## Witnesses: the window and SEC -/

/-- Nothing falls due in the next cycle, as a test. -/
def quietBool (s : State) : Bool :=
  let next := onHub s fun h => { h with subTick := 0, tick := (h.tick + 1) % 2 ^ 64 }
  (List.range 4).all (fun a => !alarmDue next a) && (List.range 16).all (fun t => !taskDue next t) &&
    (List.range 4).all (fun q => !seqDue next q) && decide (s.evf.offers = []) && decide (s.aqe.prof = none) &&
    s.tat.entries.all fun e => decide (e.2.status ≠ .armed)

theorem quiet_ok {s : State} (h : quietBool s = true) : QuietCycle s := by
  simp only [quietBool, Bool.and_eq_true, List.all_eq_true, List.mem_range, Bool.not_eq_true'] at h
  obtain ⟨⟨⟨⟨⟨ha, ht⟩, hq⟩, ho⟩, hp⟩, he⟩ := h
  refine ⟨fun a => ?_, fun t => ?_, fun q => ?_, of_decide_eq_true ho, of_decide_eq_true hp, fun e hm => by simpa using he e hm⟩
  · by_cases h4 : a < 4
    · exact ha a h4
    · simp [alarmDue, h4]
  · by_cases h16 : t < 16
    · exact ht t h16
    · simp [taskDue, h16]
  · by_cases h4 : q < 4
    · exact hq q h4
    · simp [seqDue, h4]

theorem wit_FleetTimeAdvances : run.pending = [] ∧ run.coreOn = true ∧ QuietCycle run ∧ run.ft.sub < 2 ^ 32 :=
  ⟨by decide, by decide, quiet_ok (by decide), by decide⟩
theorem wit_AonTickCounts : park.pending = [] ∧ park.coreOn = false ∧ park.pwr.porHeld = false ∧ QuietCycle park ∧
    State.reset.coreOn = false ∧ State.reset.pwr.porHeld = true ∧ QuietCycle State.reset :=
  ⟨by decide, by decide, by decide, quiet_ok (by decide), by decide, by decide, quiet_ok (by decide)⟩
theorem wit_ResetState : State.reset.pwr.porHeld = true ∧ park.coreOn = false ∧
    ({ park.pwr with wait := BootWait.hold } : PwrState).wait ≠ .none := by decide
/-- The table evaluates: loaded, enabled, in RUN with Fleet Time good. -/
def tabled : State :=
  { setReg run Pg.TAT Off.TAT_TAT_CFG 0xE001 with ft := { mode := .free }, tat := { loaded := true, passDue := false } }
/-- PATH_EN with LMF_ANY, with LMF_REG and with FRATRA_REG off, on a page at either end of the space. -/
theorem wit_PathOff : 0 < 4096 ∧ 4095 < 4096 ∧ pathServed run .lmf = true ∧ pathServed run .fratra = true ∧
    pathServed tabled .tat = true ∧ pathServed run .hkp = true ∧ lm1.tenant % 64 ≠ 0 ∧
    (reg run Pg.SYS Off.SYS_PATH_EN 3).bit Pg.SYS Off.SYS_PATH_EN 2 = false ∧
    (reg run Pg.SYS Off.SYS_PATH_EN 5).bit Pg.SYS Off.SYS_PATH_EN 1 = false ∧
    (reg run Pg.SYS Off.SYS_PATH_EN 6).bit Pg.SYS Off.SYS_PATH_EN 0 = false := by decide
theorem wit_ReservedPage : blockOf 0xFFF = none ∧ pathServed run hk.path = true ∧ pathCode run hk 0xFFF = 0 := by decide
theorem wit_WriteRejected : pathServed run fr.path = true ∧ pathCode run fr Pg.SEC = 0 ∧ blockOf Pg.SEC = some .sec ∧
    admitWrite run fr .sec 0 Pg.SEC Off.SEC_KS_CMD 0 = 0x81 := by decide
theorem wit_RegisterAccess : Served run hk Pg.DRAM Off.DRAM_SCRUB_CFG 0x1A8 ∧ blockOf Pg.DRAM = some .dram ∧
    (rowAt .dram Off.DRAM_SCRUB_CFG).isSome = true ∧ ServedRead run hk Pg.SYS Off.ERR_CODE ∧
    counterAt .sys 0x040 = some 0x040 ∧ ServedRead run fr Pg.SYS 0x040 := by
  refine ⟨?_, ?_, ?_, ?_, ?_, ?_⟩ <;> first | decide | (apply served_ok; decide) | (apply served_read_ok; decide)
/-- LOCK at 1, and the ends of the tenants' range. -/
theorem wit_PageOwnership : Served run hk Pg.DRAM Off.PAGE_OWNER 0x813F ∧ reqTenant lm1 ≠ 0 ∧ pathServed run lm1.path = true ∧
    pathCode run lm1 Pg.DRAM = 0 ∧ (blockOf Pg.DRAM).isSome = true ∧ reqTenant hk = 0 ∧
    (reg run Pg.DRAM Off.PAGE_OWNER 0x8000).bit Pg.DRAM Off.PAGE_OWNER 15 = true := by
  refine ⟨?_, ?_, ?_, ?_, ?_, ?_, ?_⟩ <;> first | decide | (apply served_ok; decide)
/-- A hold-off time that runs, owes a delivery, and finds its page pending and its pin routed. -/
def routed : State := reg (reg run Pg.DRAM Off.IRQ_EN 2) Pg.DRAM Off.IRQ_ROUTE 2
def flagged : State := reg (reg run Pg.DRAM Off.IRQ_FLAG 2) Pg.DRAM Off.IRQ_ROUTE 2
def owing : State := setHoldoff (reg (reg (reg run Pg.DRAM Off.IRQ_FLAG 2) Pg.DRAM Off.IRQ_EN 2) Pg.DRAM Off.IRQ_ROUTE 2) Pg.DRAM 1
  { running := true, owed := true }
theorem wit_InterruptRegisters : Served run hk Pg.DRAM Off.IRQ_FLAG 0xF ∧ Served run hk Pg.DRAM Off.IRQ_FORCE 0xF ∧
    Served run hk Pg.DRAM Off.IRQ_EN 0xF ∧ (owing.holdoff Pg.DRAM 1).running = true ∧ (owing.holdoff Pg.DRAM 1).owed = true ∧
    owing.irqPend Pg.DRAM = true ∧ owing.bit Pg.DRAM Off.IRQ_ROUTE 1 = true ∧ destAvailable owing Pg.DRAM 1 = true ∧
    Served routed hk Pg.DRAM Off.IRQ_FORCE 2 ∧ (2 : Word) &&& flagMask .dram &&& routed.reg Pg.DRAM Off.IRQ_EN ≠ 0 ∧
    Served flagged hk Pg.DRAM Off.IRQ_EN 2 ∧
    (2 : Word) &&& flagMask .dram &&& ~~~ flagged.reg Pg.DRAM Off.IRQ_EN &&& flagged.reg Pg.DRAM Off.IRQ_FLAG ≠ 0 ∧
    (routed.holdoff Pg.DRAM 1).running = false ∧ (flagged.holdoff Pg.DRAM 1).running = false ∧
    destAvailable routed Pg.DRAM 1 = true ∧ destAvailable flagged Pg.DRAM 1 = true ∧
    routed.bit Pg.DRAM Off.IRQ_ROUTE 1 = true ∧ flagged.bit Pg.DRAM Off.IRQ_ROUTE 1 = true := by
  refine ⟨?_, ?_, ?_, ?_, ?_, ?_, ?_, ?_, ?_, ?_, ?_, ?_, ?_, ?_, ?_, ?_, ?_, ?_⟩ <;> first | decide | (apply served_ok; decide)
theorem wit_PageEnable : enFixed .sec = true ∧ admitWrite run hk .sec 0 Pg.SEC Off.PAGE_CTRL 2 = 0 ∧ pathCode run hk Pg.SEC = 0 ∧
    Served run hk Pg.ADC Off.PAGE_CTRL 0 ∧ Served (reg run Pg.PSQ Off.PAGE_CTRL 0) hk Pg.PSQ Off.PAGE_CTRL 1 ∧ (reg run Pg.PSQ Off.PAGE_CTRL 0).en Pg.PSQ = false ∧
    Served run hk Pg.PSQ Off.PAGE_CTRL 0 := by
  refine ⟨?_, ?_, ?_, ?_, ?_, ?_, ?_⟩ <;> first | decide | (apply served_ok; decide)
theorem wit_SoftReset : Served run hk Pg.SEC Off.PAGE_CTRL 3 ∧ run.en Pg.SEC = true ∧ Pg.SEC ∉ run.inReset ∧
    Served run hk Pg.KVX Off.PAGE_CTRL 3 ∧ run.en Pg.KVX = true ∧ softMask run Pg.KVX (addr Pg.KVX Off.KVX_INC_CFG) = 0 ∧
    softMask run Pg.KVX (addr Pg.DRAM Off.DRAM_SCRUB_CFG) = 0xFFFFFFFF := by
  refine ⟨?_, ?_, ?_, ?_, ?_, ?_, ?_⟩ <;> first | decide | (apply served_ok; decide)
def keying (op : KeyOp) : State := { run with sec := { busy := some op } }
theorem wit_KeyCommands : Served run hk Pg.SEC Off.SEC_KS_CMD 1 ∧ Served run hk Pg.SEC Off.SEC_KS_CMD 2 ∧
    Served run hk Pg.SEC Off.SEC_KS_CMD 3 ∧ Served run hk Pg.SEC Off.SEC_KS_CMD 4 ∧
    Served run hk Pg.SEC Off.SEC_KEY_REV_CMD 0x103 ∧ (keying (.load 63 [])).sec.busy = some (.load 63 []) ∧
    (keying (.generate 64)).sec.busy = some (.generate 64) ∧ (keying (.zeroize 128)).sec.busy = some (.zeroize 128) ∧
    (keying (.check 0)).sec.busy = some (.check 0) ∧ (keying (.revoke 3 true)).sec.busy = some (.revoke 3 true) ∧
    run.sec.busy = none := by
  refine ⟨?_, ?_, ?_, ?_, ?_, ?_, ?_, ?_, ?_, ?_, ?_⟩ <;>
    first | decide | (apply served_ok; decide)
/-- A key in slot 128 and a fresh nonce of the LMF path. -/
def opening : State := { run with sec := { slots := [(128, List.replicate 32 7)], nonce := some (.lmf, List.replicate 16 1) } }
theorem wit_SecureSession : ServedRead run lm Pg.SEC (Off.SEC_SESS_NONCE 0) ∧ run.sec.lockout = false ∧
    ({ run.sec with lockout := true } : SecState).lockout = true ∧ Served opening lm Pg.SEC Off.SEC_SESS_CTRL 0x3C01 ∧ Served run hk Pg.SEC Off.SEC_SESS_CTRL 0xFF02 ∧
    admitWrite run lm .sec 0 Pg.SEC Off.SEC_SESS_CTRL 1 = 0 ∧ pathCode run lm Pg.SEC = 0 ∧
    opening.sec.nonce.map Prod.fst = some lm.path ∧ run.sec.nonce.map Prod.fst ≠ some lm.path ∧
    storeFind run.sec.slots 128 = none := by
  refine ⟨?_, ?_, ?_, ?_, ?_, ?_, ?_, ?_, ?_, ?_⟩ <;> first | decide | (apply served_ok; decide) | (apply served_read_ok; decide)

/-! ## Witnesses: clocks, Fleet Time, the Timed Action Table -/

theorem wit_ClockEvents : ({ run.clk with refPresent := true } : ClkState).refPresent = true ∧
    ({ run with ft := { mode := .ptp } } : State).ft.mode ≠ .unset ∧ run.coreOn = true ∧ run.pwr.porHeld = false ∧ run.pwr.wait ≠ .aonPll ∧
    { run.pwr with wait := BootWait.aonPll }.wait = .aonPll ∧ 10 ≤ ((30 : Int) - run.clk.calTemp).natAbs ∧
    ((run.clk.calTemp + 9) - run.clk.calTemp).natAbs < 10 ∧ (10 : Nat) ≤ ((run.clk.calTemp - 10) - run.clk.calTemp).natAbs ∧
    { run.clk with recal := true }.recal = true ∧ run.clk.recal = false := by decide
theorem wit_FleetTimeCommands : Served run hk Pg.TIME Off.TIME_FT_CMD 1 ∧ Served run hk Pg.TIME Off.TIME_FT_CMD 2 ∧
    Served run hk Pg.TIME Off.TIME_FT_CMD 0x44 ∧ admitWrite run hk .time 0 Pg.TIME Off.TIME_FT_CMD 0x54 = 0 ∧
    ((0x54 : Word).bit 2 = true ∧ 5 ≤ (0x54 : Word).fld 6 4) ∧
    admitWrite run hk .time 0 Pg.TIME Off.TIME_FT_CMD 3 = 0 ∧ pathServed run hk.path = true ∧ pathCode run hk Pg.TIME = 0 := by
  refine ⟨?_, ?_, ?_, ?_, ?_, ?_, ?_, ?_⟩ <;> first | decide | (apply served_ok; decide)
/-- The first values outside the range, and its ends. -/
theorem wit_FleetTimeRange : admitWrite run hk .time 0 Pg.TIME Off.TIME_FT_ADDEND 0 = 0 ∧ pathCode run hk Pg.TIME = 0 ∧
    (BitVec.ofInt 32 (-4294968) : Word).toInt < -4294967 ∧ 4294967 < (4294968 : Word).toInt ∧
    -4294967 ≤ (BitVec.ofInt 32 (-4294967) : Word).toInt ∧ (4294967 : Word).toInt ≤ 4294967 := by decide
/-- A pulse enabled and gated in in state UNSET; PTP with four good edges; the last nanosecond of a second. -/
def pulsing : State := { reg run Pg.TIME Off.TIME_TSYNC_OUT_CFG 0xFFFFFFFF with ft := { mode := .ptp, goodRun := 4 } }
def lastNs : State := { run with ft := { mode := .ptp, ns := 999999999 } }
theorem wit_FleetTimeReadsAndPairs : ServedRead run fr Pg.TIME Off.TIME_FT_RD_NS ∧
    ServedRead run fr Pg.TIME (Off.TIME_CORR_RING (8 * 63)) ∧ ServedRead run fr Pg.TIME (Off.TIME_CORR_RING (8 * 63 + 7)) ∧
    run.coreOn = true ∧ run.pwr.porHeld = false ∧ tsyncOutOn run = false ∧ tsyncOutOn pulsing = true ∧
    tsyncOutDue pulsing = true ∧ tsyncOutDue { pulsing with ft := { pulsing.ft with ns := 1 } } = false ∧
    (ftCounted lastNs).ft.ns / 1000000000 ≠ lastNs.ft.ns / 1000000000 ∧
    (ftCounted run).ft.ns / 1000000000 = run.ft.ns / 1000000000 ∧ ({ run.pwr with image := true } : PwrState).image = true ∧
    QuietCycle lastNs := by
  refine ⟨?_, ?_, ?_, ?_, ?_, ?_, ?_, ?_, ?_, ?_, ?_, ?_, ?_⟩ <;>
    first | decide | (apply served_ok; decide) | (apply served_read_ok; decide) | (apply quiet_ok; decide)
/-- An entry that is past, one of KIND 7, one in the pool, and one armed that a move of POOL_BASE would pass. -/
def entryOf (c ns hi : Word) : State :=
  reg (reg (reg (reg run Pg.TAT Off.TAT_TAT_CFG 0x100) Pg.TAT Off.TAT_TE_CTRL c) Pg.TAT Off.TAT_TE_T_NS ns) Pg.TAT Off.TAT_TE_T_SEC_LO hi
theorem wit_TatCommands : Served run hk Pg.TAT Off.TAT_TAT_CMD 1 ∧ Served (entryOf 0 0 1) hk Pg.TAT Off.TAT_TAT_CMD 2 ∧
    Served run hk Pg.TAT Off.TAT_TAT_CMD 3 ∧ Served run hk Pg.TAT Off.TAT_TAT_CFG 0xFF01 ∧
    admitWrite run hk .tat 0 Pg.TAT Off.TAT_TAT_CMD 2 = 0 ∧ (stagedEntry (entryOf 7 0 1)).kind = 7 ∧
    (stagedEntry (entryOf 0 0 0)).t ≤ (entryOf 0 0 0).ft.ns ∧ argBad (stagedEntry (entryOf 0 0 0)) = false ∧
    999999999 < ((entryOf 0 1000000000 1).reg Pg.TAT Off.TAT_TE_T_NS).toNat ∧
    admitWrite (reg run Pg.TAT Off.PAGE_OWNER 0) fr .tat 0 Pg.TAT Off.TAT_TAT_CMD 2 = 0 ∧
    (reg run Pg.TAT Off.TAT_TAT_CFG 0).fld Pg.TAT Off.TAT_TAT_CFG 15 8 ≤ (reg run Pg.TAT Off.TAT_TAT_CFG 0).tatIdx ∧
    ¬ (reqTenant fr = 0 ∧ reqSec run fr = true) ∧
    min ((entryOf 0 0 0).fld Pg.TAT Off.TAT_TAT_CFG 15 8) ((0 : Word).fld 15 8) ≤ 0 ∧
    0 < max ((entryOf 0 0 0).fld Pg.TAT Off.TAT_TAT_CFG 15 8) ((0 : Word).fld 15 8) := by
  refine ⟨?_, ?_, ?_, ?_, ?_, ?_, ?_, ?_, ?_, ?_, ?_, ?_, ?_, ?_⟩ <;>
    first | decide | (apply served_ok; decide)
/-- One entry, armed and due exactly now, evaluated; and the pass after a pause, under SKIP_LATE and not. -/
def due (skip pass : Bool) : State :=
  { reg run Pg.TAT Off.TAT_TAT_CFG 0xE001 with
    ft := { mode := .free }
    tat := { entries := [(255, { t := 0, status := .armed, skipLate := skip })], loaded := true, passDue := pass } }
def arriving (value : Word) : State :=
  let a : AonAction :=
    { address := addr Pg.PSQ Off.IRQ_EN, value := value, actAs := 0, sec := decide (value = 1), idx := 0, late := false
      stepped := false, missed := 0, firedNs := 0 }
  { reg run Pg.PSQ Off.PAGE_OWNER 0x103 with tat := { aonWrites := [a] } }
theorem wit_TatFires : tatRuns (due false false) = true ∧ tatRuns (due true true) = true ∧
    (due false true).tat.entries = [(255, { t := 0, status := .armed })] ∧ (due true true).tat.passDue = true ∧
    (0 : Nat) ≤ (due false false).ft.ns ∧ (arriving 1).tat.aonWrites.length = 1 ∧
    tatRuns run = false ∧ run.tat.aonWrites = [] ∧
    ((arriving 1).tat.aonWrites.map fun a => (lastAnswer (writeJudged { arriving 1 with tat := {} }
      { path := .tat, tenant := a.actAs, sec := a.sec } a.address a.value) .tat).code) = [0] ∧
    ((arriving 0).tat.aonWrites.map fun a => (lastAnswer (writeJudged { arriving 0 with tat := {} }
      { path := .tat, tenant := a.actAs, sec := a.sec } a.address a.value) .tat).code) ≠ [0] := by decide +kernel

/-! ## Witnesses: power, reset, start-up, Harvest -/

/-- A power state waiting for something. -/
def waiting (st : PState) (w : BootWait) : State := { pwr := { state := st, porHeld := false, wait := w } }
theorem wit_PowerHandshake : State.reset.pwr.porHeld = true ∧ (waiting .boot .offMin).pwr.corePwrEn = false ∧
    (waiting .boot .offMin).pwr.pgood = false ∧ (waiting .boot .pgood).pwr.wait = .pgood ∧
    (waiting .boot .pgood).pwr.attempts < (waiting .boot .pgood).fld Pg.PWR Off.PWR_PWR_SEQ 18 16 ∧
    (reg (waiting .boot .pgood) Pg.PWR Off.PWR_PWR_SEQ 0).fld Pg.PWR Off.PWR_PWR_SEQ 18 16 ≤ (waiting .boot .pgood).pwr.attempts ∧
    powerDue { pwr := { state := .boot, porHeld := false, wait := .offMin, pgood := true } } = true ∧
    powerDue park = false ∧ ({ park.pwr with pgood := true } : PwrState).pgood = true ∧ park.pwr.porHeld = false ∧
    park.pwr.corePwrEn = false ∧ ({ waiting .boot .pll with pwr := { (waiting .boot .pll).pwr with resetN := true } }).pwr.resetN = true ∧
    (waiting .boot .pll).pwr.resetN = false ∧ imageCopies (waiting .boot .pll) ≠ [] ∧
    imageCopies { pwr := { state := .boot, wait := .pll, straps := 4 } } = [] ∧ (waiting .boot .retry).pwr.wait = .retry := by decide
/-- A copy of version 65535 that passes every check of Table 4.7, whatever version is fused: signed for the test with a key of
its own, whose hash is fused as number 3. -/
def goodImage : ImageRead :=
  { readOk := true
    bytes := beBytes 16 0x4C484B50FFFF03000000001000000000 ++
      beBytes 32 0x471c3e758c4904285bba7e53118ed0f524adeb0757d25bd2f8e7b0d76dfa714c ++
      beBytes 32 0xdd520f7aca8a8b917acc37f51de8f0c9bbe3ad858382e702dc25a12d09f7a858 ++
      beBytes 32 0x62892595d64b4e3cabfc298c993b82886d79e68e6da0824b9f85429f666a7c8f ++
      beBytes 32 0x8c1778da689aa3be1b680f536bfe8397f79ca8a516cb150e2bf6767c18b48c3f ++ List.replicate 16 0 }
def badImage : ImageRead := { readOk := true, bytes := [0] }
def fused : State :=
  { boot with sec := { bootKeys := [(3, beBytes 32 0xb3d283416a8e6401d39a988f2e469a12968dc63c4387a3f2c67338ad14a1e6d0)] } }
theorem goodImage_key : imgKeyOk fused goodImage = true := by decide +kernel
theorem goodImage_signed : imgSigOk goodImage = true := by decide +kernel
theorem goodImage_version : imgVersion goodImage = 65535 := by decide +kernel
theorem goodImage_header : ¬ (imgMagic goodImage ≠ 0x4C484B50 ∨ imgFlags goodImage ≠ 0 ∨ imgBodyLen goodImage ≤ imgEntry goodImage) ∧
    ¬ (imgBodyLen goodImage % 16 ≠ 0 ∨ 4194304 < imgBodyLen goodImage) := by decide +kernel
theorem goodImage_passes : imageFault fused goodImage = 0 := by
  have h2 : ¬ imgVersion goodImage < Config.versionFloor.toNat := by
    have := Config.versionFloor.isLt
    rw [goodImage_version]
    omega
  unfold imageFault
  rw [if_neg goodImage_header.1, if_neg goodImage_header.2, if_neg (by decide), if_neg (by rw [goodImage_key]; decide), if_neg h2,
    if_neg (by rw [goodImage_signed]; decide)]
theorem badImage_fails : imageFault fused badImage = 1 := by
  unfold imageFault
  rw [if_pos (Or.inl (by decide +kernel))]
theorem wit_BootBegins : (inState .off).pwr.porHeld = false ∧ (waiting .off .offMin).pwr.state ≠ .boot ∧
    (waiting .off .offMin).pwr.wait = .offMin ∧ (waiting .off .offMin).pwr.corePwrEn = false ∧
    (waiting .off .offMin).pwr.pgood = false ∧
    ({ pwr := { state := .park, porHeld := false, wakeLatch := 4 } } : State).pwr.wakeLatch ≠ 0 ∧ romRuns fused = true ∧
    fused.pwr.usbWait = false ∧ (imageCopies fused)[fused.pwr.tried]? = some (0, 0) := by decide
theorem wit_BootBegins_image : imageFault fused (copyRead fused 0 0 goodImage) = 0 ∧ imageFault fused (copyRead fused 0 0 badImage) ≠ 0 :=
  ⟨goodImage_passes, by rw [show copyRead fused 0 0 badImage = badImage from rfl, badImage_fails]; decide⟩
theorem wit_BootBegins_faults : imgMagic badImage ≠ 0x4C484B50 ∧ sha256 (imgPubkey badImage) ≠ fused.bootKey (imgKeyIdx badImage) ∧
    ({ fused.sec with revoked := 1 } : SecState).revoked.getLsbD (imgKeyIdx badImage) = true ∧ imgSigOk badImage = false := by
  decide +kernel
def booted : State := { pwr := { state := .boot, porHeld := false, image := true, discovered := true }, tat := { loaded := true, passDue := false } }
theorem wit_BootEnds : boot.pwr.state = .boot ∧ booted.pwr.image = true ∧ booted.pwr.needRecovery = false ∧
    booted.tat.loaded = true ∧ passDeferred booted = true ∧ booted.tat.passDue = false ∧ booted.pwr.discovered = true ∧
    boot.pwr.discovered = false ∧ boot.pwr.image = false ∧
    ({ booted.pwr with discovered := true, needRecovery := true } : PwrState).needRecovery = true := by decide
/-- A settle that runs: warm or not, drained, woken. -/
def settling (warm woken : Bool) : State :=
  { run with pwr := { run.pwr with settle := some { warm := warm, drained := true, woken := woken } } }
theorem wit_SettleStarts : Served run hk Pg.PWR Off.PWR_PWR_CMD 1 ∧ admitWrite boot hk .pwr 0 Pg.PWR Off.PWR_PWR_CMD 1 = 0 ∧
    pathServed boot hk.path = true ∧ boot.pwr.state ≠ .run ∧ (settling false false).pwr.settle.isSome = true ∧
    Served run hk Pg.RST Off.RST_RST_CMD 1 ∧ Served (settling false false) hk Pg.RST Off.RST_RST_CMD 1 ∧
    (settling true false).pwr.settle.map Settle.warm = some true ∧ (settling true false).pwr.settle.map Settle.drained = some true ∧
    ({ run.pwr with watchdog := true } : PwrState).watchdog = true ∧ run.pwr.resetN = false := by
  refine ⟨?_, ?_, ?_, ?_, ?_, ?_, ?_, ?_, ?_, ?_, ?_⟩ <;>
    first | decide | (apply served_ok; decide)
def link5 (straps : BitVec 5) : State := { run with pwr := { run.pwr with straps := straps }, acd := { train := 5 } }
theorem wit_SettleRuns : (settling false true).pwr.settle.map Settle.woken = some true ∧
    (settling false false).pwr.settle.map Settle.woken = some false ∧
    (settling false false).pwr.settle.map Settle.drained = some true ∧ run.pwr.settle = none ∧
    ({ warm := false } : Settle).drained = false ∧ run.fratra.ops = [] ∧ (link5 0).acd.train = 5 := by decide
def poweredBoot : State := { boot with pwr := { boot.pwr with corePwrEn := true, pgood := true } }
theorem wit_Resets : Served run hk Pg.RST Off.RST_RST_CMD 0x100 ∧ park.pwr.state = .park ∧ park.pwr.resetN = false ∧
    aonPage Pg.AON = true ∧ ({ waiting .boot .hold with pwr := { (waiting .boot .hold).pwr with cause := 8 } }).pwr.cause ≠ 0 ∧
    (waiting .boot .hold).pwr.resetN = false ∧ (inState .off).pwr.state = .off ∧ run.pwr.state = .run ∧
    journalMask (addr Pg.AON Off.PAGE_OWNER) = 0 ∧ (tatCycle run).pwr.state = .run ∧
    (tatCycle poweredBoot).pwr = poweredBoot.pwr ∧ poweredBoot.pwr.corePwrEn = true ∧ poweredBoot.pwr.pgood = true ∧
    ({ park.pwr with porDeferred := true } : PwrState).porDeferred = true ∧ run.pwr.watchdog = false ∧
    ({ run.pwr with watchdog := true } : PwrState).watchdog = true := by
  refine ⟨?_, ?_, ?_, ?_, ?_, ?_, ?_, ?_, ?_, ?_, ?_, ?_, ?_, ?_, ?_, ?_⟩ <;> first | decide | (apply served_ok; decide)
theorem wit_PowerFails : run.pwr.state = .run ∧ boot.pwr.state = .boot ∧ park.pwr.state = .park ∧
    (tatCycle run).pwr = run.pwr ∧ (tatCycle boot).pwr = boot.pwr ∧
    ({ run.pwr with corePwrEn := true } : PwrState).corePwrEn = true ∧ run.pwr.porDeferred = false ∧ run.coreOn = true ∧ park.pwr.corePwrEn = false ∧ park.pwr.porDeferred = false ∧
    park.coreOn = false := by decide
/-- A Harvest that runs, with one LUN in the rotation. -/
def part : Part :=
  { ifaces := 7, cell := 1, pageKib := 16, pages := 1, blocks := 8, planes := 1, spare := 0, maxRate := 400, retries := 8, rated := none }
def harvesting : State :=
  { pwr := { state := .harvest, porHeld := false }, hrv := { run := some { startNs := 0, dirty := 0, segments := 0, vTrip := 0 } }
    ftl := { luns := [(511, { part := part })] } }
def harvestingB : State :=
  { harvesting with ftl := { luns := [(7, { part := { part with pages := 768, blocks := 800 }, good := 800 })], hrvBlk := 60 } }
def charging : State := reg (reg park Pg.HRV Off.HRV_BANK_CFG3 0x10000) Pg.HRV Off.HRV_BANK_CHK 0x10000
theorem wit_HarvestAndBank : harvesting.hrv.run.isSome = true ∧ 0 ∉ rotation harvesting ∧ rotation harvestingB ≠ [] ∧
    harvestingB.hrv.run.isSome = true ∧ harvesting.pwr.state = .harvest ∧
    harvesting.pwr.porDeferred = false ∧ harvesting.hrv.run.map HarvestRun.railsFallen = some false ∧
    (doPgoodLoss harvesting).hrv.run.map HarvestRun.railsFallen = some true ∧ charging.fld Pg.HRV Off.HRV_BANK_CFG3 31 16 ≠ 0 ∧
    charging.fld Pg.HRV Off.HRV_BANK_CHK 15 0 < charging.fld Pg.HRV Off.HRV_BANK_CHK 31 16 ∧ charging.pwr.state ≠ .off ∧
    (reg park Pg.HRV Off.HRV_BANK_CFG3 0).fld Pg.HRV Off.HRV_BANK_CFG3 31 16 = 0 := by decide

/-! ## Witnesses: Ethernet ports -/

/-- Port 3 enabled with a mode, and with its link up. -/
def portOn (cfg : Word) (p : PortState) : State := setPort (reg (reg run (Pg.MAC 3) Off.PAGE_CTRL 1) (Pg.MAC 3) Off.MAC_PORT_CFG cfg) 3 p
/-- A frame in reception, as stage 1 may judge it. -/
def pend (ctl : Nat) (filtered discard : Bool) (adm : Option (Nat × Nat)) : RxPending :=
  { head := [], stamp := 0, allowance := 1518, ctl := ctl, filtered := filtered, discard := discard, admitted := adm }
theorem wit_PortLinks : (rowAt .mac Off.MAC_PORT_CFG).isSome = true ∧ Served (reg run (Pg.MAC 3) Off.PAGE_CTRL 0) hk (Pg.MAC 3) Off.MAC_PORT_CFG 1 ∧
    (portOn 4 {}).en (Pg.MAC 3) = true ∧ (portOn 4 {}).fld (Pg.MAC 3) Off.MAC_PORT_CFG 3 0 = 4 ∧ ((portOn 4 {}).port 3).link = false ∧
    ((portOn 1 { link := true }).port 3).link = true ∧ ((portOn 1 { link := true }).port 3).rx = none ∧
    linkSpeed (portOn 4 {}) 3 3 = some 3 ∧ linkSpeed (portOn 4 {}) 3 7 = none ∧ (portOn 4 {}).inRun = true ∧
    ((portOn 1 { link := true, rx := some (pend 0 false false none) }).port 3).rx = some (pend 0 false false none) ∧
    (portOn 1 {}).bit (Pg.MAC 3) Off.MAC_FRAME_CFG 16 = false ∧
    Served run hk Pg.STEER Off.STEER_CFG_CMD 1 ∧ ({ run with snap := { saving := some [] } }).snap.saving = some [] := by
  refine ⟨?_, ?_, ?_, ?_, ?_, ?_, ?_, ?_, ?_, ?_, ?_, ?_, ?_, ?_⟩ <;> first | decide | (apply served_ok; decide)
/-- Fourteen octets to the broadcast address, and a PAUSE frame; broadcast is let in, or not. -/
def headTo (da : List Byte) (etype : List Byte) : List Byte := da ++ [2, 0, 0, 0, 0, 1] ++ etype
def listening : State := portOn 1 { link := true }
theorem wit_FrameStarts : listening.receiving 3 = true ∧ (listening.port 3).rx = none ∧
    14 ≤ (headTo (List.replicate 6 0xFF) [8, 0]).length ∧
    ctlKind listening 3 (listening.readHead 3 (headTo [1, 0x80, 0xC2, 0, 0, 1] [0x88, 8] ++ [0, 1]))
      (headTo [1, 0x80, 0xC2, 0, 0, 1] [0x88, 8] ++ [0, 1]) = 1 ∧
    ctlKind listening 3 (listening.readHead 3 (headTo (List.replicate 6 0xFF) [8, 0]))
      (headTo (List.replicate 6 0xFF) [8, 0]) = 0 ∧
    filterPass listening 3 (listening.readHead 3 (headTo (List.replicate 6 0xFF) [8, 0])) = true ∧
    filterPass (reg listening (Pg.MAC 3) Off.MAC_FILT_CFG 0) 3
      ((reg listening (Pg.MAC 3) Off.MAC_FILT_CFG 0).readHead 3 (headTo (List.replicate 6 0xFF) [8, 0])) = false := by decide
/-- The shortest frame with a good FCS, and its two neighbours in length. -/
def body60 : List Byte := List.replicate 60 0
def frame64 : List Byte := body60 ++ leBytes32 (crc32 body60)
def roleQ : State := reg listening (Pg.MAC 3) Off.MAC_RXQ_MAP_LO 1
theorem wit_FrameEnds : frame64.length = 64 ∧ frame64.drop 60 = leBytes32 (crc32 (frame64.take 60)) ∧
    (frame64.drop 1).length < 64 ∧ 14 ≤ (frame64.drop 1).length ∧ 64 ≤ (pend 0 false false none).allowance ∧
    roleQ.queueRole 3 0 = 1 ∧ relayed roleQ 3 0 (roleQ.readHead 3 []) = false ∧
    (pend 0 false false (some (0, 6))).admitted = some (0, 6) ∧ (pend 3 false false none).ctl = 3 ∧
    (pend 0 true false none).filtered = true ∧ (pend 0 false true none).discard = true ∧
    listening.bit (Pg.MAC 3) Off.MAC_FRAME_CFG 16 = false ∧ (portOn 0x11 { link := true }).receiving 3 = true ∧
    (portOn 0x11 { link := true }).fld (Pg.MAC 3) Off.MAC_PORT_CFG 5 4 ≠ 0 ∧ run.receiving 3 = false ∧
    (listening.port 3).rx = none ∧ List.length (List.replicate 13 (0 : Byte)) < 14 := by decide +kernel
/-- A frame in transmission, of each kind, and a two-step event frame with room in the FIFO for its stamp. -/
def sending (ctl : Nat) (st : TxStamp) (bs : List Byte) : State :=
  setPort listening 3 { link := true, cur := some { frame := { cls := 3, bytes := bs, stamp := st }, ctl := ctl, bytes := bs, startNs := 7, length := 64 }
                        tsFifo := List.replicate 3 { ns := 0, msgType := 0, seqId := 0, domain := 0 } }
def flow (mode : Word) : State := reg listening (Pg.MAC 3) Off.MAC_FC_CFG (mode ||| 4)
theorem wit_FlowControl : (flow 1).bit (Pg.MAC 3) Off.MAC_FC_CFG 2 = true ∧ (flow 1).fld (Pg.MAC 3) Off.MAC_FC_CFG 1 0 = 1 ∧
    (flow 2).fld (Pg.MAC 3) Off.MAC_FC_CFG 1 0 = 2 ∧ (flow 1).receiving 3 = true ∧
    (reg listening (Pg.MAC 3) Off.MAC_FC_CFG 0).bit (Pg.MAC 3) Off.MAC_FC_CFG 2 = false ∧
    ((setPort (flow 1) 3 { link := true, xoff := [0] }).port 3).xoff ≠ [] ∧ (flow 1).portUp 3 = true ∧ (flow 1).inRun = true ∧
    ((flow 1).port 3).cur = none ∧ ((flow 1).port 3).xoff = [] ∧ run.receiving 3 = false ∧
    ((sending 0 .none []).port 3).cur.isSome = true := by decide
def syncFrame : List Byte := headTo (List.replicate 6 0xFF) [0x88, 0xF7] ++ List.replicate 44 0
theorem wit_FramesLeave : ((sending 0 .none []).port 3).cur.map (fun c => (c.ctl, c.frame.stamp)) = some (0, .none) ∧
    ((sending 1 .none []).port 3).cur.map TxCurrent.ctl = some 1 ∧ ((sending 2 .none []).port 3).cur.map TxCurrent.ctl = some 2 ∧
    (ptpEvent (sending 0 .twoStep syncFrame) 3 syncFrame).isSome = true ∧ ((sending 0 .twoStep syncFrame).port 3).tsFifo.length < 4 ∧
    4 ≤ ((setPort (sending 0 .twoStep syncFrame) 3 { (sending 0 .twoStep syncFrame).port 3 with
      tsFifo := List.replicate 4 { ns := 0, msgType := 0, seqId := 0, domain := 0 } }).port 3).tsFifo.length ∧
    ((sending 0 .none []).port 3).tsFifo ≠ [] ∧ (listening.port 3).cur = none ∧ ServedRead (sending 0 .none []) hk (Pg.MAC 3) Off.MAC_TX_TS_NS ∧
    (listening.port 3).tsFifo = [] ∧ ServedRead listening hk (Pg.MAC 3) Off.MAC_TX_TS_NS := by
  refine ⟨?_, ?_, ?_, ?_, ?_, ?_, ?_, ?_, ?_, ?_, ?_⟩ <;> first | decide | (apply served_ok; decide) | (apply served_read_ok; decide)

/-! ## Witnesses: the Fratra engine and the tenants -/

/-- Tenant 1 with VID 5 on port 3, whose queue 0 feeds the engine. -/
def bound : State :=
  setTen (reg (reg (reg (reg listening (Pg.MAC 3) Off.MAC_RXQ_MAP_LO 1) (Pg.TEN 1) Off.TEN_TEN_BIND 0x80005) (Pg.TEN 1) Off.TEN_TEN_CFG 0x100185)
    (Pg.TEN 1) Off.TEN_OPTAG_QUOTA 1024) 1 {}
/-- A Fratra part with a one-byte key: version and flags, tenant, opcode, SEQ. -/
def partOf (b0 ten op : Byte) (seq : Byte) : List Byte :=
  [b0, ten, op, 1, 0, 5, 0, 0, 0, 0, 0, seq] ++ List.replicate 20 0 ++ [1]
def framed (part : List Byte) : List Byte :=
  List.replicate 6 0xFF ++ [2, 0, 0, 0, 0, 1, 0x81, 0, 0, 5, 0x88, 0xB5] ++ part
def fed (s : State) (part : List Byte) : State :=
  setPort s 3 { s.port 3 with queues := [(0, [{ bytes := framed part, stamp := 0, cells := 1 }])] }
def seqZero : StreamCtx :=
  { id := { tenant := 1, client := 0x020000000001, stream := 0 }, base := 1, limit := 16, n := 0, carriage := { kind := 0 } }
def streaming : State := { bound with fratra := { streams := [seqZero] } }
/-- What the frame meets: malformed; admitted; verified with the slot and the secure attribute; a part it is read as. -/
def illPart (part : List Byte) (c : Carriage) : Bool :=
  let r := parseRequest part
  decide (part.length < 32 ∨ r.ver ≠ 1 ∨ r.resp = true ∨ c.src.getLsbD 40 = true ∨ r.whole = false)
def carriageOf (part : List Byte) : Carriage := portCarriage bound 3 (framed part)
theorem wit_FrameArrivals : (fed bound (partOf 0x12 1 1 1)).inRun = true ∧
    (nextWaiting (fed bound (partOf 0x12 1 1 1))).map Waiting.place = some (some (3, 0)) ∧
    (storeLook ((fed bound (partOf 0x12 1 1 1)).port 3).queues 0 []).length = 1 ∧
    (framed (partOf 0x12 1 1 1)).drop (14 + 4 * tagCount (bound.sTpid 3) (framed (partOf 0x12 1 1 1))) = partOf 0x12 1 1 1 ∧
    illPart (partOf 0x22 1 1 1) (carriageOf []) = true ∧ illPart (partOf 0x12 1 1 1) (carriageOf []) = false ∧
    tenantAdmitted bound (carriageOf []) 2 = false ∧ tenantAdmitted bound (carriageOf []) 1 = true ∧
    authenticate bound (carriageOf []) (parseRequest (partOf 0x13 1 1 1)) = none ∧
    authenticate bound (carriageOf []) (parseRequest (partOf 0x12 1 1 1)) = some (none, false) ∧
    ((setTen bound 1 { rstBusy := true }).ten 1).rstBusy = true ∧ (streaming.ten 1).rstBusy = false ∧
    streaming.findStream seqZero.id = some seqZero ∧ accepts seqZero 1 = true ∧ seqLe 1 seqZero.limit = true ∧
    seqZero.got = [] ∧ assembling streaming seqZero.id = [] ∧ seqZero.residue = [] ∧ bound.findStream seqZero.id = none ∧
    (parseRequest (partOf 0x12 1 1 1)).options.bit 1 = false ∧ (parseRequest (partOf 0x12 1 1 1)).seq = seqZero.n + 1 ∧
    streamHold streaming 1 = false ∧ tagFree streaming 1 = true ∧
    ([0x01, 0x02, 0x30, 0x31, 0x3F].map fun op => (parseRequest (partOf 0x12 1 op 1)).opcode) = [0x01, 0x02, 0x30, 0x31, 0x3F] ∧
    requestFault (parseRequest (partOf 0x12 1 1 1)) = none := by decide
/-- An operation of tenant 1 that is ready, and keys that it may find. -/
def opOf (op : Nat) (key : List Byte) : OpState :=
  { id := { tenant := 1, client := 2, stream := 3 }, carriage := { kind := 0 }, opcode := op, optag := 5, options := 0, key := key
    version := 0, offset := 0, total := 0, ext := none, lastSeq := 1, admitNs := 0, phase := .ready }
def withOp (s : State) (o : OpState) : State := { s with fratra := { s.fratra with ops := [(7, o)] } }
def kA : KeyEntry := { key := [1], content := .value [9, 8], version := 4 }
def kAlias : KeyEntry := { key := [2], content := .aliasTo [1], version := 5 }
def kHeld : KeyEntry := { key := [3], content := .value [], version := 6, client := true }
/-- The hold-up bank has been measured, and VHOLD_DIV is set. -/
def banked : State := { reg run Pg.HRV Off.HRV_BANK_CFG2 0x10028 with hrv := { cMeas := some 60000 } }
def keyed3 : State := setTen (reg banked (Pg.TEN 1) Off.TEN_TEN_CFG 0x100185) 1 { keys := [kA, kAlias, kHeld], verCtr := 6 }
abbrev readyOp (o : OpState) : Prop := opReady (withOp keyed3 o) o.opcode 7 = some o
theorem wit_ReadsAnswer : readyOp (opOf 0x01 [2]) ∧ resolveKey keyed3 1 [2] = some kA ∧ lostRanges keyed3 kA = [] ∧
    damageStatus kA = none ∧ resolveKey keyed3 1 [4] = none ∧ readyOp { opOf 0x02 [1] with offset := 1, total := 9 } ∧
    1 < (contentBytes kA).length ∧ (contentBytes kA).length ≤ 2 ∧ readyOp (opOf 0x30 []) ∧
    (((keyed3.ten 1).keys.filter fun e => decide (e.key.take 0 = [])).flatMap scanEntry).length ≤ 65536 ∧
    readyOp { opOf 0x31 [] with offset := 1 } ∧ readyOp (opOf 0x31 []) ∧ readyOp (opOf 0x31 [1]) ∧
    keyed3.findKey 1 [1] = some kA ∧ readyOp (opOf 0x31 [4]) ∧ keyed3.findKey 1 [4] = none ∧ readyOp (opOf 0x3F []) ∧
    ((withOp keyed3 (opOf 0x3F [])).fratra.ops.any fun e =>
      e.1 ≠ 7 && decide (e.2.id = (opOf 0x3F []).id) && seqLe e.2.lastSeq (opOf 0x3F []).lastSeq) = false ∧
    storeFind (withOp keyed3 (opOf 0x3F [])).fratra.ops 7 = some (opOf 0x3F []) := by decide
theorem ifRoom_ok {s t : State} (h : budgetHolds s t = true) : ifRoom s t = t := if_pos h
/-- One LUN, a Harvest area and a budget, and DRAM for keys. -/
def part1 : Part :=
  { ifaces := 7, cell := 1, pageKib := 16, pages := 768, blocks := 800, planes := 4, spare := 0, maxRate := 400, retries := 8, rated := none }
def roomy (s : State) : State :=
  let s := reg (reg (reg s Pg.HRV Off.HRV_BANK_CFG1 0x550FA0) Pg.HRV Off.HRV_BANK_CFG2 0x10028) Pg.HRV Off.HRV_BANK_CFG3 0
  { s with ftl := { luns := [(0, { part := part1, good := 800 })], hrvBlk := 60, formatted := true, dram := { gib := 8 } }
           hrv := { cMeas := some 60000, vBank := 12000, rateMBs := 400 } }
/-- The key index has room and the Harvest budget takes a small value. -/
def roomOp (o : OpState) : State := withOp (roomy keyed3) o
def putU (o : OpState) (total : Nat) : State :=
  let w := commitPut (roomOp o) 1 o.key (.value o.data) o.admitNs (waitTag (roomOp o) 7 o) o.carriage
  ackWrite (waitsTwin (roomOp o) o) (bumpBy w.2 (Pg.TEN 1) 0x050 o.data.length) 7 o
    { status := St.OK, version := w.1, total := total }
theorem wit_ValueWrites : keyHeld kHeld = true ∧ keyed3.findKey 1 [3] = some kHeld ∧ readyOp (opOf 0x10 [3]) ∧
    keyed3.findKey 1 [1] = some kA ∧ keyHeld kA = false ∧ kA.version ≠ 9 ∧ readyOp (opOf 0x11 [1]) ∧
    readyOp { opOf 0x13 [1] with version := 9 } ∧ readyOp (opOf 0x13 [4]) ∧ keyed3.findKey 1 [4] = none := by decide
theorem wit_ValueWrites_room : keyTotal (roomOp (opOf 0x10 [4])) < keyCap (roomOp (opOf 0x10 [4])) ∧
    opReady (roomOp { opOf 0x10 [4] with data := [1] }) 0x10 7 = some { opOf 0x10 [4] with data := [1] } ∧
    opReady (roomOp (opOf 0x11 [4])) 0x11 7 = some (opOf 0x11 [4]) ∧
    opReady (roomOp { opOf 0x13 [1] with version := 4 }) 0x13 7 = some { opOf 0x13 [1] with version := 4 } ∧
    opReady (roomOp { opOf 0x12 [4] with data := [1] }) 0x12 7 = some { opOf 0x12 [4] with data := [1] } ∧
    (roomOp (opOf 0x12 [4])).findKey 1 [4] = none ∧ (roomOp (opOf 0x13 [1])).findKey 1 [1] = some kA := by decide
theorem wit_ValueWrites_ifRoom : ifRoom (roomOp (opOf 0x10 [4])) (putU (opOf 0x10 [4]) 0) = putU (opOf 0x10 [4]) 0 ∧
    ifRoom (roomOp { opOf 0x13 [1] with version := 4 }) (putU { opOf 0x13 [1] with version := 4 } 0) =
      putU { opOf 0x13 [1] with version := 4 } 0 :=
  ⟨ifRoom_ok (by decide +kernel), ifRoom_ok (by decide +kernel)⟩
def addU (o : OpState) : State :=
  ackWrite (waitsTwin (roomOp o) o) (bumpBy (commitAppend (roomOp o) 1 kA [9, 8] o.data (waitTag (roomOp o) 7 o) o.carriage).2 (Pg.TEN 1) 0x050 o.data.length) 7 o
    { status := St.OK, version := (commitAppend (roomOp o) 1 kA [9, 8] o.data (waitTag (roomOp o) 7 o) o.carriage).1, offset := 2, total := 2 + o.data.length }
def aliasU (o : OpState) : State :=
  let w := commitPut (roomOp o) 1 o.key (.aliasTo o.data) o.admitNs (waitTag (roomOp o) 7 o) o.carriage
  ackWrite (waitsTwin (roomOp o) o) w.2 7 o { status := St.OK, version := w.1 }
theorem wit_KeyChanges : readyOp (opOf 0x14 [3]) ∧ readyOp { opOf 0x14 [1] with version := 4 } ∧ keyHeld kHeld = true ∧
    keyHeld kA = false ∧ readyOp { opOf 0x15 [1] with options := 8 } ∧ readyOp (opOf 0x15 [3]) ∧ readyOp (opOf 0x12 [1]) ∧
    damageStatus kA = none ∧ kA.content = .value [9, 8] ∧ readyOp (opOf 0x20 [4]) ∧
    keyed3.findKey 1 [4] = none ∧ readyOp (opOf 0x21 [2]) ∧ keyed3.beyond 1 ≠ .mirror ∧
    poolEntries (reg keyed3 Pg.TAT Off.TAT_TAT_CFG 0xFF00) = [255] ∧
    poolEntries { reg keyed3 Pg.TAT Off.TAT_TAT_CFG 0xFF00 with
      tat := { entries := [(255, { status := .armed })] } } = [] := by decide +kernel
theorem wit_KeyChanges_ifRoom : ifRoom (roomOp (opOf 0x12 [1])) (addU (opOf 0x12 [1])) = addU (opOf 0x12 [1]) ∧
    ifRoom (roomOp (opOf 0x20 [4])) (aliasU (opOf 0x20 [4])) = aliasU (opOf 0x20 [4]) :=
  ⟨ifRoom_ok (by decide +kernel), ifRoom_ok (by decide +kernel)⟩
theorem wit_EngineEvents : readyOp { opOf 0x70 [] with data := List.replicate 8 0 } ∧ readyOp (opOf 0x71 []) ∧
    keyed3.usb.mailbox = none ∧
    ({ keyed3.usb with mailbox := some { lmf := true, opTag := none, sec := false, msg := [] } } : UsbState).mailbox.isSome = true ∧
    streaming.findStream seqZero.id = some seqZero ∧ seqZero.owed = false ∧ { seqZero with owed := true }.owed = true ∧
    streamBusy streaming seqZero.id = false ∧ streamBusy (withOp run (opOf 1 [])) (opOf 1 []).id = true := by decide
def windowed (inc : Incident) : State := { reg keyed3 Pg.KVX Off.KVX_INC_CFG 0x101 with fratra := { keyed3.fratra with incident := inc } }
theorem wit_TenantsAndIncidents : Served run hk (Pg.TEN 1) Off.TEN_TEN_CFG 0x100184 ∧
    Served run hk (Pg.TEN 1) Off.TEN_TEN_BIND 0x90067 ∧ Served run hk (Pg.TEN 1) Off.TEN_TEN_CMD 1 ∧
    Served run hk (Pg.TEN 1) Off.TEN_TEN_CMD 2 ∧ (run.ten 1).rstBusy = false ∧
    ((setTen bound 1 { rstBusy := true }).ten 1).rstBusy = true ∧ ((setTen bound 1 { purgeBusy := true }).ten 1).purgeBusy = true ∧
    (bound.ten 1).purgeBusy = false ∧ (windowed {}).inRun = true ∧ (windowed {}).bit Pg.KVX Off.KVX_INC_CFG 0 = true ∧
    (windowed {}).incTenant = 1 ∧ (windowed {}).mirrored (windowed {}).incTenant = false ∧
    (windowed {}).findKey 1 [1] = some kA ∧ spanMeets kA 0 0 = true ∧
    (windowed { openNow := true }).fratra.incident.openNow = true ∧ (windowed {}).fratra.incident.openNow = false ∧
    run.bit Pg.KVX Off.KVX_INC_CFG 0 = false ∧ Served bound hk (Pg.TEN 1) Off.TEN_TEN_CFG 0x100184 ∧
    (bound.reg (Pg.TEN 1) Off.TEN_TEN_CFG).bit 0 = true ∧
    ((stored bound .ten (Pg.TEN 1) Off.TEN_TEN_CFG 0x100184).reg (Pg.TEN 1) Off.TEN_TEN_CFG).bit 0 = false := by
  refine ⟨?_, ?_, ?_, ?_, ?_, ?_, ?_, ?_, ?_, ?_, ?_, ?_, ?_, ?_, ?_, ?_, ?_, ?_, ?_, ?_⟩ <;>
    first | decide | (apply served_ok; decide)

/-! ## Witnesses: flash translation, NAND, DRAM -/

def room : State := roomy run
/-- Logical sheaf 9, and LUN 0, as given. -/
def withSheaf (x : Sheaf) : State := setSheaf room 9 x
def lun0 : Lun := room.lun 0
def withLun (l : Lun) : State := setLun room 0 l
def fullDirty (whole : Bool) (mapping : Nat) : Sheaf :=
  { tenant := 1, whole := whole, alloc := 256, mapping := mapping, dirty := (List.range 256).map fun g => (g, 1) }
def prog0 : Prog := { lun := 0, block := 2, pos := 0, refs := [{ sheaf := 9, grain := 0 }], slotOf := some 9, stamps := [1] }
/-- The data has waited for WB_AGE_MS. -/
def aged (x : Sheaf) : State := { withSheaf x with hub := { tick := 3000000000 } }
theorem wit_WriteBack : dirtyIdle room 9 = [] ∧ allFloor (withLun { lun0 with upkeep := 3 }) = true ∧
    allFloor (withSheaf (fullDirty true 0)) = false ∧ (withSheaf (fullDirty true 0)).inRun = true ∧
    writeDue (withSheaf (fullDirty true 0)) 9 = true ∧ dirtyIdle (withSheaf (fullDirty true 0)) 9 ≠ [] ∧
    nextProgram (withSheaf (fullDirty true 0)) .due 9 = some (0, 1048576) ∧
    (dieTurn (withSheaf (fullDirty true 0)) .due 0 1 1048576).isSome = true ∧
    ((withSheaf (fullDirty true 0)).sheaf 9).mapping = 0 ∧ ((withSheaf (fullDirty true 0)).sheaf 9).whole = true ∧
    (dirtyIdle (withSheaf (fullDirty true 0)) 9).length = 256 ∧ ((aged (fullDirty false 0)).sheaf 9).whole = false ∧
    writeDue (aged (fullDirty false 0)) 9 = true ∧ writeDue (aged (fullDirty true 1)) 9 = true ∧
    256 ≤ (dirtyIdle (aged (fullDirty true 1)) 9).length ∧ writeDue (aged (fullDirty false 2)) 9 = true := by
  refine ⟨?_, ?_, ?_, ?_, ?_, ?_, ?_, ?_, ?_, ?_, ?_, ?_, ?_, ?_, ?_, ?_⟩ <;> decide +kernel
/-- One dirty grain of a sheaf mapped SHEAF or GRAIN, and one whose only LUN is out of the order. -/
def oneDirty (mapping : Nat) : Sheaf := { tenant := 1, whole := false, alloc := 256, mapping := mapping, dirty := [(0, 1)] }
theorem wit_WriteBack_part : writeDue (aged (oneDirty 1)) 9 = true ∧ (dirtyIdle (aged (oneDirty 1)) 9).length < 256 ∧
    rewrites (aged (oneDirty 1)) 9 = true ∧ rewrites (reg (aged (oneDirty 1)) Pg.FTL Off.FTL_MAP_CFG 0) 9 = false ∧
    regionFits (aged (oneDirty 1)) = true ∧ regionFits run = false ∧
    (nextProgram (aged (oneDirty 1)) .due 9).isSome = true ∧
    (nextProgram (reg (aged (oneDirty 1)) Pg.FTL Off.FTL_MAP_CFG 0) .due 9).isSome = true ∧
    (dieTurn (aged (oneDirty 2)) .due 0 1 4096).isSome = true ∧
    nextProgram (setLun (setLun (aged (oneDirty 2)) 0 { lun0 with upkeep := 3 }) 1 { lun0 with failed := true }) .due 9 = none := by
  refine ⟨?_, ?_, ?_, ?_, ?_, ?_, ?_, ?_, ?_, ?_⟩ <;> decide +kernel
def programmed : State := { (withSheaf (fullDirty true 0)) with ftl := { (withSheaf (fullDirty true 0)).ftl with progs := [(4, prog0)] } }
theorem wit_Programs : storeFind programmed.ftl.progs 4 = some prog0 ∧ prog0.slotOf = some 9 ∧ prog0.fold = none ∧
    prog0.held = false ∧ programmed.sheaf 9 ≠ noSheaf ∧ (programmed.sheaf 9).mapping ≠ 2 ∧
    { prog0 with fold := some 3 }.fold = some 3 ∧ { fullDirty true 0 with folding := some 3 }.folding = some 3 ∧
    (programmed.sheaf 9).folding ≠ some 3 ∧ { prog0 with held := true }.held = true ∧ storeFind room.ftl.progs 4 = none := by decide
/-- A closed block of sheaf 9 with a dead grain; a LUN that moves from it, that erases, and that is due a wear move. -/
def block2 : FlashBlock := { use := 2, kind := 2, refs := [{ sheaf := 9, grain := 0 }, { sheaf := 9, grain := 1 }] }
def gleanable (l : Lun) : State :=
  setSheaf (withLun { l with blocks := [(2, block2)] }) 9 { tenant := 1, whole := false, alloc := 256, mapping := 2, dead := [1]
                                                            grains := [(0, { lun := 0, block := 2, pos := 0 })] }
def slotSheaf : Sheaf := { tenant := 1, whole := true, alloc := 256, mapping := 1, slot := some { lun := 0, block := 2, pos := 0 } }
def moveOf (left : List GrainRef) : MoveTask := { kind := 3, src := 2, left := left }
def moving (left : List GrainRef) : State :=
  setSheaf (withLun { lun0 with blocks := [(2, { block2 with kind := 1 })], move := some (moveOf left) }) 9 slotSheaf
theorem wit_UpkeepMoves_begin : serves (gleanable { lun0 with upkeep := 1 }) 0 3 = true ∧
    ((gleanable { lun0 with upkeep := 1 }).lun 0).upkeep ≠ 0 ∧
    gleanVictim (gleanable { lun0 with upkeep := 1 }) 0 = some 2 ∧ (room.lun 0).upkeep = 0 ∧
    refreshNext (gleanable { lun0 with refreshQ := [2] }) 0 = some 2 ∧ refreshNext room 0 = none ∧
    serves (gleanable { lun0 with refreshQ := [2] }) 0 2 = true ∧ serves (moving []) 0 3 = false ∧
    serves run 0 2 = false := by refine ⟨?_, ?_, ?_, ?_, ?_, ?_, ?_, ?_, ?_⟩ <;> decide +kernel
def worn : State := reg (gleanable { lun0 with wearPending := true, eraseCnt := [(5, 9000)] }) Pg.HLTH Off.HLTH_WEAR_CFG 0x10001
theorem wit_UpkeepMoves_wear : serves (wearCheck worn 0) 0 5 = true ∧ ((wearCheck worn 0).lun 0).wearPending = true ∧
    ((wearCheck worn 0).lun 0).blocks.filter (movable (wearCheck worn 0) 0) ≠ [] := by
  refine ⟨?_, ?_, ?_⟩ <;> decide +kernel
def erasing0 : State := withLun { lun0 with blocks := [(2, block2)], erasing := [(2, 77)] }
def grainMoving : State :=
  setSheaf (withLun { lun0 with blocks := [(2, block2)], move := some (moveOf block2.refs) }) 9
    { tenant := 1, whole := false, alloc := 256, mapping := 2, resident := true
      grains := [(0, { lun := 0, block := 2, pos := 0 }), (1, { lun := 0, block := 2, pos := 1 })] }
theorem wit_UpkeepMoves_end : (room.lun 0).move = none ∧ ((moving []).lun 0).move = some (moveOf []) ∧ upkeepRuns (moving []) = true ∧
    lunTraining (moving []) 0 = false ∧ kindPaused (moving []) 0 3 = false ∧ upkeepRuns boot = false ∧
    unitThere (moving [{ sheaf := 8, grain := 0 }, { sheaf := 9, grain := 0 }]) 0 (moveOf []) { sheaf := 8, grain := 0 } = false ∧
    unitThere (moving []) 0 (moveOf []) { sheaf := 9, grain := 0 } = true ∧
    switchTurn (moving [{ sheaf := 9, grain := 0 }]) 0 (moveOf []) = some (moving [{ sheaf := 9, grain := 0 }]) ∧
    ((moving []).sheaf 9).dead = [] ∧ (blockFor (moving [{ sheaf := 9, grain := 0 }]) 0 3 256).1.isSome = true := by
  refine ⟨?_, ?_, ?_, ?_, ?_, ?_, ?_, ?_, ?_, ?_, ?_⟩ <;> decide +kernel
theorem wit_UpkeepMoves_grain : unitThere grainMoving 0 (moveOf []) { sheaf := 9, grain := 0 } = true ∧
    switchTurn grainMoving 0 (moveOf []) = some grainMoving ∧ (grainMoving.sheaf 9).mapping = 2 ∧
    nearlyDead grainMoving 9 = false ∧ (blockFor (touchRegion grainMoving 9) 0 3 1).1.isSome = true := by
  refine ⟨?_, ?_, ?_, ?_, ?_⟩ <;> decide +kernel
theorem wit_UpkeepMoves_erase : storeFind (erasing0.lun 0).erasing 2 = some 77 ∧ (erasing0.lun 0).heldErase.contains 2 = false ∧
    { lun0 with heldErase := [2] }.heldErase.contains 2 = true ∧ storeFind (erasing0.lun 0).erasing 3 = none := by decide
/-- A unit of gleaning waits on LUN 0 in an upkeep state, and a whole sheaf's write-back is due there. -/
def contested (upkeep : Nat) : State :=
  setSheaf (onLun (moving [{ sheaf := 9, grain := 0 }]) 0 fun l => { l with upkeep := upkeep }) 10 (fullDirty true 0)
/-- Table 9.8: in IDLE the tenant goes first, in URGENT gleaning does, unless a Top tenant with tokens waits. -/
theorem test_die_queue_states : switchTurn (contested 0) 0 (moveOf []) = none ∧
    (dieTurn (contested 0) .due 0 1 1048576).isSome = true ∧ (switchTurn (contested 2) 0 (moveOf [])).isSome = true ∧
    dieTurn (contested 2) .due 0 1 1048576 = none ∧
    switchTurn (reg (contested 2) (Pg.TEN 1) Off.TEN_TEN_CFG 0x100) 0 (moveOf []) = none := by
  refine ⟨?_, ?_, ?_, ?_, ?_⟩ <;> decide +kernel
/-- Table 9.8: in BACKGROUND upkeep takes its part beside a Base tenant, and one of the two has its turn. -/
theorem test_die_queue_background :
    (dieSelect (contested 1) 0 none (upkeepFirst (contested 1) 0)).1.isSome = true := by decide +kernel
theorem wit_UpkeepMoves_fold : ((gleanable lun0).sheaf 9).mapping = 2 ∧ sheafClosed ((gleanable lun0).sheaf 9) = true ∧
    foldDue { gleanable lun0 with ft := { ns := 10 ^ 15 } } 9 = true ∧ foldDue (gleanable lun0) 9 = false ∧
    foldYields { gleanable lun0 with ft := { ns := 10 ^ 15 } } 9 = false ∧
    foldLun { gleanable lun0 with ft := { ns := 10 ^ 15 } } 9 = some 0 ∧ foldLun run 9 = none ∧
    serves { gleanable lun0 with ft := { ns := 10 ^ 15 } } 0 4 = true ∧
    (upkeepTurn { gleanable lun0 with ft := { ns := 10 ^ 15 } } 0 (4, 1048576)).isSome = true := by
  refine ⟨?_, ?_, ?_, ?_, ?_, ?_, ?_, ?_, ?_⟩ <;> decide +kernel
def chan0 (c : ChanState) : State := { room with ftl := { room.ftl with chans := [(0, c)] } }
def scanning : State := onHealth room fun h =>
  { h with events := [{ num := 1, cause := 4, lun := 0, ns := 0, mode := 0, step := 0, affected := 0, identRunning := true }] }
/-- A read of the codeword of grain 0 of block 2, decoded at a step. -/
def readAt (step entry : Nat) (patrol : Bool) : CwRead :=
  { lun := 0, journal := false, block := 2, pos := 0, step := step, entry := entry, bits := 20, patrol := patrol, tenant := none
    names := [] }
theorem wit_NandHealth_reads : cwThere (gleanable lun0) (readAt 2 3 false) = true ∧ cwThere room (readAt 2 3 false) = false ∧
    lunTraining (gleanable lun0) 0 = false ∧ (patrolTurn (reg (gleanable lun0) Pg.ECC Off.ECC_PATROL_CFG 0x11E) 0).isSome = true ∧
    ladder (gleanable lun0) part1 0 (readAt 2 3 false) = some (2, 4, 0) ∧ ladder (gleanable lun0) part1 0 (readAt 0 0 false) = some (0, 9, 4) ∧
    ladder (gleanable lun0) part1 0 (readAt 2 9 false) = none ∧ (gleanable lun0).lun 0 = { lun0 with blocks := [(2, block2)] } := by
  refine ⟨?_, ?_, ?_, ?_, ?_, ?_, ?_, ?_⟩ <;> decide +kernel
theorem wit_NandHealth : lunInOrder (room.lun 0) = true ∧ Served room hk Pg.FTL Off.FTL_GLEAN_CFG 0x10081040 ∧
    (storeFind room.ftl.luns 0).isSome = true ∧ Served (chan0 { trained := true }) hk (Pg.NCH 0) Off.NCH_NCH_CMD 1 ∧
    ((chan0 {}).chan 0).training = false ∧ ((chan0 { training := true }).chan 0).training = true ∧
    chanBusy (chan0 { training := true }) 0 = false ∧ chanBusy erasing0 0 = true ∧
    chanLuns (chan0 { training := true }) 0 ≠ [] ∧ chanLuns run 0 = [] ∧ Served room hk Pg.HLTH Off.HLTH_LUN_CMD 0x1000 ∧
    (0x1000 : Word).bit 12 = true ∧ room.inRun = true ∧ 2 ≤ ((withLun { lun0 with timeouts := 2 }).lun 0).timeouts ∧
    (room.lun 0).timeouts < 2 ∧ (scanning.ftl.health.events.find? fun v => v.identRunning).isSome = true ∧
    (room.ftl.health.events.find? fun v => v.identRunning) = none := by
  refine ⟨?_, ?_, ?_, ?_, ?_, ?_, ?_, ?_, ?_, ?_, ?_, ?_, ?_, ?_, ?_, ?_, ?_⟩ <;>
    first | decide | (apply served_ok; decide)
/-- Without a LUN, no page is left for the pass to read. -/
def passed : State := reg run Pg.ECC Off.ECC_PATROL_CFG 0x11E
theorem wit_DramPatrolTemperature : ({ room.ftl.dram with rebuilding := 1 } : DramState).rebuilding ≠ 0 ∧
    room.ftl.dram.rebuilding = 0 ∧ (reg run Pg.DRAM Off.DRAM_SCRUB_CFG 0x1A8).bit Pg.DRAM Off.DRAM_SCRUB_CFG 8 = true ∧
    (reg run Pg.DRAM Off.DRAM_SCRUB_CFG 0).bit Pg.DRAM Off.DRAM_SCRUB_CFG 8 = false ∧ passed.inRun = true ∧ passed.en Pg.FTL = true ∧
    passed.bit Pg.ECC Off.ECC_PATROL_CFG 8 = true ∧ (∀ p, p ∈ patrolPages passed → p ∈ passed.ftl.health.patrolRead) ∧
    patrolLate passed = false ∧ patrolLate { passed with ft := { ns := 10 ^ 18 } } = true ∧
    (reg run Pg.ECC Off.ECC_PATROL_CFG 0).bit Pg.ECC Off.ECC_PATROL_CFG 8 = false ∧ run.coreOn = true ∧ park.coreOn = false ∧
    run.ftl.health.samples < 59 ∧ 59 ≤ ({ run.ftl.health with samples := 59 } : HealthState).samples := by decide
theorem wit_DramPatrolTemperature_pages : patrolPages (gleanable lun0) ≠ [] := by decide +kernel

/-! ## Witnesses: the Accord link and the pair -/

/-- RUN with the link in a training state and the pair in a state of its own. -/
def link (a : AcdState) : State := { run with acd := a }
/-- Tenant 1 mirrored, with LEAD_RANK 1 (the follower at rank 0) or 0 (the lead). -/
def follower (a : AcdState) : State := { setTen (reg run (Pg.TEN 1) Off.TEN_TEN_CFG 0x1001D5) 1 { keys := [kA] } with acd := a }
def leader (a : AcdState) : State := { setTen (reg run (Pg.TEN 1) Off.TEN_TEN_CFG 0x100195) 1 { keys := [kA] } with acd := a }
def ts1Of (rate request : Nat) (locked eqDone : Bool) : Ts1 :=
  { lane := 3, rate := rate, preset := 1, request := request, eqDone := eqDone, locked := locked, eyeH := 5, eyeV := 6 }
def helloOf (rank : Nat) (serial : BitVec 64) (knows : Bool) : Hello :=
  { rank := rank, holdsKeys := false, knowsYou := knows, adopt := false, adoptSrc := false, third := false, epoch := 2
    maxWidth := 4, serial := serial, good := 15 }
def lanesAll (l : LaneState) : Store LaneState := [(0, l), (1, l), (2, l), (3, l)]
theorem wit_LinkTraining : laneTrains (link { train := 1, rate := 3 }) 3 = true ∧ (link { train := 1 }).acd.train = 1 ∧
    ((link { train := 1 }).lane 3).locked = false ∧
    ((link { train := 1, lanes := lanesAll { locked := true } }).lane 3).locked = true ∧
    (link { train := 2, good := 8 }).acd.good.getLsbD 3 = true ∧
    (if (ts1Of 3 4 true false).request ≠ 0 then ((link { train := 2, good := 8 }).lane 3).requests + 1
      else ((link { train := 2, good := 8 }).lane 3).requests) ≤ 8 ∧
    laneTrains (reg run (Pg.ACL 3) Off.PAGE_CTRL 0) 3 = false ∧ (ts1Of 2 0 true false).rate ≠ (link { rate := 3 }).acd.rate ∧
    (link { train := 3, good := 8 }).acd.good.getLsbD 3 = true ∧ (32 : Nat) ≤ 32 ∧ 32 < 33 ∧
    (goodLanes (link { train := 3, good := 15, lanes := lanesAll { aligned := true } })).all
      (fun n => ((link { train := 3, good := 15, lanes := lanesAll { aligned := true } }).lane n).aligned) = true ∧
    (helloOf 0 7 true).rank = run.rank ∧ (helloOf 1 7 true).rank ≠ run.rank ∧
    (link { partner := 7 }).acd.partner = (helloOf 1 7 true).serial ∧ (helloOf 1 7 true).serial ≠ 0 ∧ run.acd.partner = 0 ∧
    (holdsKeys run && (helloOf 1 7 false).holdsKeys) = false ∧ (link { partner := 8 }).acd.partner ≠ (helloOf 1 7 true).serial ∧
    (link { partner := 8 }).acd.adopt = none := by decide
def widening : State := reg (link { train := 5, width := 2 }) Pg.ACD Off.ACD_ACD_CFG 0x243
theorem wit_LinkTraining_ends : min (proposedWidth (link { train := 4, good := 15, twinGood := 15 })) 4 ≠ 0 ∧
    min (proposedWidth (link { train := 4 })) 4 = 0 ∧ (link { train := 4, viaDetect := true }).acd.viaDetect = true ∧
    (link { train := 4, helloOk := true }).acd.helloOk = true ∧ run.acd.helloOk = false ∧ run.acd.train = 0 ∧
    (link { rankConflict := true }).acd.rankConflict = true ∧
    ((goodLanes (link { train := 2, good := 3, lanes := [(0, { eqDone := true })] })).filter fun n =>
      ((link { train := 2, good := 3, lanes := [(0, { eqDone := true })] }).lane n).eqDone) = [0] ∧
    (reg (link { train := 1 }) Pg.ACD Off.ACD_ACD_CFG 0x40).fld Pg.ACD Off.ACD_ACD_CFG 1 0 = 0 ∧
    (reg (link { train := 1 }) Pg.ACD Off.ACD_ACD_CFG 0x43).fld Pg.ACD Off.ACD_ACD_CFG 1 0 ≠ 0 ∧
    widening.bit Pg.ACD Off.ACD_ACD_CFG 9 = true ∧
    widening.acd.width < min widening.maxWidth ((widening.acd.twin.map Hello.maxWidth).getD 4) ∧
    (reg run Pg.ACD Off.ACD_ACD_CFG 0x43).bit Pg.ACD Off.ACD_ACD_CFG 9 = false ∧
    Served (link { train := 5 }) hk Pg.ACD Off.ACD_ACD_CMD 1 ∧ Served (link { train := 5 }) hk Pg.ACD Off.ACD_ACD_CMD 0x22 ∧
    (0x22 : Word).bit 0 = false ∧ (0x22 : Word).bit 1 = true := by
  refine ⟨?_, ?_, ?_, ?_, ?_, ?_, ?_, ?_, ?_, ?_, ?_, ?_, ?_, ?_, ?_, ?_, ?_⟩ <;>
    first | decide | (apply served_ok; decide)
def flitOf (ack : Nat) (nak retrain : Bool) : LinkFlit :=
  { ack := ack, nak := nak, hb := true, retrain := retrain, widthReq := false, echo := false, widthWanted := 0, nakFseq := 2
    credits := [1, 2, 3], hbSeq := 0, ns := 0, epoch := 2, poolFree := 4 }
def held12 : List HeldFlit := [{ fseq := 1, vc := 0 }, { fseq := 2, vc := 2 }]
def wholeFlit : FlitBody := { som := true, eom := true, mtype := 1, payload := [] }
theorem wit_LinkTraffic_rows : ({ som := true, eom := true, mtype := 1, payload := List.replicate 64 0 } : FlitBody).payload.length ≤ 64 ∧
    (link { train := 5, width := 2, blocks := flitBlocks (flitBytes 0 1 wholeFlit) }).acd.rows < 4096 ∧
    2 ≤ (link { train := 5, width := 2, blocks := flitBlocks (flitBytes 0 1 wholeFlit) }).acd.blocks.length := by decide
theorem wit_LinkTraffic : linkTakes run = false ∧ linkTakes (link { train := 5, retry := held12 }) = true ∧
    ((held12.filter fun h => !fseqLe h.fseq (flitOf 1 true false).ack).filter fun h => fseqLe (flitOf 1 true false).nakFseq h.fseq)
      = [{ fseq := 2, vc := 2 }] ∧
    (link { train := 5 }).acd.reqPending = none ∧ (flitOf 0 false true).nak = false ∧ (flitOf 0 false true).echo = false ∧
    (flitOf 0 false true).retrain = true ∧ (link { train := 5, retry := held12 }).acd.retry ≠ [] ∧
    ((link { train := 5, lanes := lanesAll { locked := true, inUse := true } }).lane 0).locked = true ∧
    ((link { train := 5, lanes := lanesAll { locked := true, inUse := true } }).lane 3).inUse = true ∧
    ((link { train := 5, lanes := lanesAll { locked := true, inUse := true } }).lane 1).locked = true ∧
    ((link { train := 5, lanes := [(0, { locked := true, inUse := true })] }).lane 0).locked = true ∧
    (∀ m, m < 4 → m ≠ 0 → ((link { train := 5, lanes := [(0, { locked := true, inUse := true })] }).lane m).locked = false) ∧
    (run.lane 0).locked = false ∧ (link { train := 5 }).acd.grace = false ∧ run.pwr.state ≠ .harvest ∧
    (link { misses := 6 }).acd.misses < 7 ∧ 7 ≤ (link { misses := 7 }).acd.misses ∧ (link { grace := true }).acd.grace = true ∧
    harvesting.pwr.state = .harvest ∧ (link { pair := .paired }).acd.pair = .paired := by decide
def paired : AcdState := { train := 5, pair := .paired }
def mirrorOf (op : Nat) (key : List Byte) : MirrorOp := { opcode := op, key := key, version := 9, options := 0, value := [5] }
def keyHealing : KeyEntry := { kA with damage := .healing }
def healer : State := { setTen run 1 { keys := [keyHealing] } with acd := paired }
def dataOf (version : Nat) : KeyData :=
  { tenant := 1, epoch := 0, present := true, deleted := false, absent := false, lost := false, key := [1], version := version
    content := .value [9, 8] }
/-- The follower with a Harvest area and a budget. -/
def followerRoom : State := roomy (follower paired)
theorem wit_Mirroring_room : (mirrorOf 0x10 [1]).carriage.src.getLsbD 40 = false ∧ opDefined (mirrorOf 0x10 [1]).opcode = true ∧
    opDefined (mirrorOf 0x99 [1]).opcode = false ∧
    { mirrorOf 0x10 [1] with carriage := { kind := 0, src := 0x010000000000 } }.carriage.src.getLsbD 40 = true ∧
    budgetHolds followerRoom (applyMirror (acceptFlits followerRoom (.mirror 1 6 (mirrorOf 0x10 [1]))) 1 (mirrorOf 0x10 [1])) = true := by
  refine ⟨?_, ?_, ?_, ?_, ?_⟩ <;> decide +kernel
def waitingOp : State :=
  { withOp run { opOf 0x10 [1] with phase := .waitTwin { seq := 1, opcode := 0x10, optag := 5, status := 0 } } with
    acd := { paired with backlog := [{ tenant := 1, mseq := 3, key := [1], version := 9, deleted := false, commitNs := 0, waiting := some 7 }] } }
theorem wit_Mirroring : linkTakes run = false ∧ linkTakes (follower paired) = true ∧ (follower paired).acd.pair = .paired ∧
    (follower paired).mirrored 1 = true ∧ (follower paired).leads 1 = false ∧
    (storeFind (follower paired).acd.mseqExp 1).getD 6 = 6 ∧
    (storeFind (follower { paired with mseqExp := [(1, 7)] }).acd.mseqExp 1).getD 6 ≠ 6 ∧
    (waitingOp.acd.backlog.map fun b => (b.tenant, b.waiting)) = [(1, some 7)] ∧ mseqLe 3 3 = true ∧
    (storeFind waitingOp.fratra.ops 7).isSome = true ∧
    ({ run with pwr := { run.pwr with straps := 1 } } : State).rank = 1 ∧ run.rank = 0 ∧ paired.pair ≠ .catchup ∧
    run.acd.pair ≠ .paired ∧ run.acd.pair ≠ .catchup ∧
    ((reg (leader paired) Pg.KVX Off.KVX_INC_CFG 1).bit Pg.KVX Off.KVX_INC_CFG 0 && (leader paired).mirrored 1 &&
      (leader paired).leads 1) = true ∧
    ((follower paired).bit Pg.KVX Off.KVX_INC_CFG 0 && (follower paired).mirrored 1 && (follower paired).leads 1) = false ∧
    (List.headD [(0x18 : Byte)] 0).getLsbD 3 = true ∧ (List.headD [(0x12 : Byte)] 0).getLsbD 3 = false := by decide
theorem wit_Mirroring_keys : (follower paired).findKey 1 [1] = some kA ∧ kA.damage = .none ∧
    healTarget healer (dataOf 4) = some keyHealing ∧ healTarget run (dataOf 4) = none ∧ (dataOf 4).lost = false ∧
    (dataOf 4).present = true ∧ newer keyHealing.epoch keyHealing.version (dataOf 4).epoch (dataOf 4).version = false ∧
    (follower { train := 5, pair := .catchup }).acd.pair = .catchup ∧
    (follower { train := 5, pair := .catchup }).acd.resolved.contains 1 = false ∧
    linkTakes (follower { train := 5, pair := .catchup }) = true := by decide
/-- Port 0 up in the heartbeat's port set, with a frame key for TC0. -/
def beating : State :=
  { setPort (reg (reg (reg run (Pg.MAC 0) Off.PAGE_CTRL 1) (Pg.MAC 0) Off.MAC_PORT_CFG 1) Pg.ACD Off.ACD_HB_CFG 0x10000) 0 { link := true } with
    sec := { slots := [(64, List.replicate 32 3)] }, acd := { partner := 7, pair := .isolated } }
/-- A heartbeat of rank 1 at epoch 2 from serial number 7, tagged under a key. -/
def beatHead : List Byte :=
  List.replicate 6 0xFF ++ [2, 0, 0, 0, 0, 1] ++ [0x88, 0xB6] ++ [1, 1, 0, 0] ++ [0, 0, 0, 0, 0, 0, 0, 7] ++ [0, 0, 0, 2] ++
    [5, 1, 0, 0] ++ [0, 0, 0, 0] ++ List.replicate 12 0
def beatOf (key : List Byte) : EthBeat := { port := 0, frame := beatHead ++ (hmac256 key beatHead).take 16 }
theorem wit_TwinPair : beating.inRun = true ∧ beating.fld Pg.ACD Off.ACD_HB_CFG 19 16 = 2 ^ 0 ∧
    beating.slotKey 64 = some (List.replicate 32 3) ∧ beating.portUp 0 = true ∧ (beating.port 0).cur = none ∧
    (beating.port 0).tx = [] ∧ (beating.port 0).due = 0 ∧ beating.clsStopped 0 4 = false ∧
    (reg run Pg.ACD Off.ACD_HB_CFG 0).fld Pg.ACD Off.ACD_HB_CFG 19 16 = 0 ∧ beating.acd.pair = .isolated ∧
    (link { partner := 7, pair := .split }).acd.pair ≠ .isolated ∧ (link { ethPath := true, pair := .split }).acd.ethPath = true ∧
    (link { pair := .joining }).acd.pair = .joining ∧ (link { pair := .joining }).acd.helloOk = false ∧
    (link { pair := .joining }).acd.rankConflict = false ∧ (link { pair := .joining, helloOk := true }).acd.helloOk = true ∧
    (reg run (Pg.TEN 1) Off.TEN_TEN_CFG 0x1001A5).mirrorPolicy 1 = 2 ∧ run.mirrorPolicy 1 ≠ 2 ∧
    lagReached waitingOp 1 = false ∧ lagReached { waitingOp with ft := { ns := 10 ^ 12 } } 1 = true ∧
    Served (link { adopt := none, pair := .foreign }) hk Pg.ACD Off.ACD_ACD_CMD 0x300 ∧
    Served { link { pair := .isolated } with pwr := { run.pwr with straps := 1 } } hk Pg.ACD Off.ACD_ACD_CMD 0x1000 ∧ Served run hk Pg.ACD Off.ACD_ACD_CMD 0x10000 := by
  refine ⟨?_, ?_, ?_, ?_, ?_, ?_, ?_, ?_, ?_, ?_, ?_, ?_, ?_, ?_, ?_, ?_, ?_, ?_, ?_, ?_, ?_, ?_, ?_⟩ <;>
    first | decide | (apply served_ok; decide)
theorem wit_TwinPair_beat : beatValid beating (beatOf (List.replicate 32 3)) = true ∧ beatValid beating (beatOf [4]) = false ∧
    txTooLong beating 0 { cls := 4, bytes := beatHead } = false := by refine ⟨?_, ?_, ?_⟩ <;> decide +kernel

/-! ## Witnesses: the sensor hub and its buses -/

/-- RUN with the hub and the buses as given. -/
def hubIn (h : HubState) : State := { run with hub := h }
def busIn (b : BusState) : State := { run with bus := b }
/-- A run of task 15 at step 127 with the words given. -/
def stepOf (w0 w1 : Word) (wait : StepWait := .none) : PsqRun := { task := 15, step := 127, w0 := w0, w1 := w1, wait := wait }
def running (w0 w1 : Word) : State := hubIn { run := some (stepOf w0 w1), readBuf := [1, 2] }
def task15 (s : State) : State := reg s Pg.PSQ (Off.PSQ_TASK_A 15) 0x37F
theorem wit_PollSteps_due : taskDue (task15 run) 15 = true ∧ taskDue run 15 = false ∧
    taskDue (task15 (hubIn { taskLast := [(15, 0)] })) 15 = false ∧
    railDown (task15 (busIn { rails := [(0, { down := true })] })) (taskRail (task15 run) 15) = true ∧
    railDown (task15 run) (taskRail (task15 run) 15) = false ∧
    ((task15 (hubIn { due := [{ task := 15, tick := 0, rank := 2 }] })).hub.due.map DueRun.task) = [15] ∧
    (task15 run).hub.due = [] ∧ (task15 run).hub.run = none := by decide
theorem wit_PollSteps : [0, 9, 8, 11, 10, 4, 5, 6, 7].all (fun k =>
      decide (atStep (running (BitVec.ofNat 32 k) 0) k = some (stepOf (BitVec.ofNat 32 k) 0))) = true ∧
    extractField (running 11 0).hub.readBuf 0 = some 1 ∧ extractField (running 11 0).hub.readBuf 0x02000000 = none ∧
    (List.range 8).all (fun c => decide (Word.fld (BitVec.ofNat 32 (c * 65536)) 18 16 = c)) = true ∧
    [1, 2, 3].all (fun k => decide (atStep (running (BitVec.ofNat 32 (16 + k)) 0) k =
      some (stepOf (BitVec.ofNat 32 (16 + k)) 0))) = true ∧
    (reg (running 0x11 0) (Pg.I2C 1) Off.PAGE_CTRL 0).en (Pg.I2C 1) = false ∧
    i2cUsable { running 0x11 0 with bus := { i2c := [(1, { stuck := true })] } } 1 = false ∧
    (running 0x11 0).en (Pg.I2C 1) = true ∧ i2cUsable (running 0x11 0) 1 = true ∧
    extractField (List.take (stepLen (stepOf 0x12 0)) [5]) 0 = some 5 ∧ (stepOf 0x11 0).tries < 3 ∧
    3 ≤ { stepOf 0x11 0 with tries := 3 }.tries ∧
    uartUsable (running 0x34 0) 3 = true ∧ (running 7 0).en Pg.ADC = true ∧ takeUart (running 0x35 0) 3 1 = none ∧
    ((takeUart { running 0x35 0 with bus := { uart := [(3, { fifo := [8] })] } } 3 1).map Prod.fst) = some [8] ∧
    (hubIn { run := some (stepOf 5 0 .uart) }).hub.run = some (stepOf 5 0 .uart) ∧ (stepOf 5 0).wait ≠ .uart ∧
    (0 : Word).bit 21 = false ∧ (stepOf 0 0).ending = false ∧ (stepOf 0 0).count < 255 ∧ (0 : Word).bit 31 = false := by decide
theorem wit_AlarmsAndWakes : ServedRead run fr Pg.AON Off.AON_TICK_LO ∧ Served run hk Pg.AON (Off.AON_ALM_CMP_HI 3) 1 ∧
    Served run hk Pg.AON (Off.AON_ALM_CMP_LO 3) 1 ∧ alarmDue run 3 = false ∧
    alarmDue (reg run Pg.AON (Off.AON_ALM_CTRL 3) 9) 3 = true ∧
    ((reg run Pg.AON (Off.AON_ALM_CTRL 3) 9).reg Pg.AON (Off.AON_ALM_CTRL 3)).bit 3 = true ∧
    ((reg run Pg.AON (Off.AON_ALM_CTRL 3) 9).reg Pg.AON (Off.AON_ALM_CTRL 3)).fld 31 8 = 0 ∧
    ((reg run Pg.AON (Off.AON_ALM_CTRL 3) 0x101).reg Pg.AON (Off.AON_ALM_CTRL 3)).fld 31 8 ≠ 0 ∧
    park.pwr.state = .park ∧ park.pwr.wait = .none ∧ (reg park Pg.AON Off.AON_WAKE_CFG 8).bit Pg.AON Off.AON_WAKE_CFG 3 = true ∧
    (reg park Pg.AON Off.AON_WAKE_CFG 0).bit Pg.AON Off.AON_WAKE_CFG 3 = false ∧ run.pwr.state = .run ∧ run.pwr.settle = none ∧
    (reg run Pg.AON Off.AON_HOST_WAKE_CFG 4).bit Pg.AON Off.AON_HOST_WAKE_CFG 2 = true ∧
    (reg run Pg.AON Off.AON_HOST_WAKE_CFG 0).bit Pg.AON Off.AON_HOST_WAKE_CFG 2 = false ∧
    Served run hk Pg.AON Off.AON_HOST_WAKE_CMD 1 := by
  refine ⟨?_, ?_, ?_, ?_, ?_, ?_, ?_, ?_, ?_, ?_, ?_, ?_, ?_, ?_, ?_, ?_, ?_⟩ <;>
    first | decide | (apply served_ok; decide) | (apply served_read_ok; decide)
def oneBatch : Batch := { entries := [{ tick := 0, mark := false, value := 7 }] }
def batching : State :=
  { hubIn { batches := [(31, { open? := some oneBatch, closed := [oneBatch] })], sillage := [{ type := 7, seq := 0, tick := 1, data := [3] }]
            pairs := [{ tick := 9, phase := 0, coarse := false, seeded := false, src := 0, mode := .free, stepCount := 0, seq := 0, ns := 5000, frac := 0 }] } with
    ft := { mode := .free } }
def movingOn : State := reg batching Pg.BAT Off.BAT_BAT_CFG 0x101
/-- An interval of recogniser groups 0 and 31 has closed. -/
def closing : State :=
  { run with tat := { closes := [{ mask := 0x80000001, tenant := 0, firedNs := 0, late := false, mode := 1, step := 0 }] } }
theorem wit_HubRecords : run.bus.gpiIn.bit 31 ≠ true ∧
    (reg run Pg.GPIO Off.GPIO_EDGE_RISE 0x80000000).bit Pg.GPIO Off.GPIO_EDGE_RISE 31 = true ∧ run.bus.gpiIn.bit 31 = false ∧
    ((reg run Pg.REC (Off.REC_REC_CFG0 31) 4).recCfg 31).fld 2 0 = 4 ∧
    ((reg run Pg.REC (Off.REC_REC_CFG0 31) 5).recCfg 31).fld 2 0 = 5 ∧
    gapPast (hubIn { recogs := [(31, { progress := 1 })], tick := 1 }) 31 = true ∧ gapPast run 31 = false ∧ run.en Pg.REC = true ∧
    (run.recCfg 31).fld 2 0 ∉ [4, 5] ∧
    (batching.batchesOf 31).open? = some oneBatch ∧ batchDue { batching with hub := { batching.hub with tick := 10 ^ 10 } } 31 = true ∧
    batchDue run 31 = false ∧ moverOn movingOn = true ∧ moverOn run = false ∧ (batching.batchesOf 31).closed = [oneBatch] ∧
    (batchTime movingOn oneBatch).isSome = true ∧ movingOn.inRun = true ∧ chunkDue movingOn = false ∧
    chunkDue { movingOn with hub := { movingOn.hub with tick := 10 ^ 10 } } = true ∧ movingOn.hub.sillRetry = false ∧
    movingOn.hub.sillage.length = 1 ∧ park.inRun = false ∧
    closing.tat.closes.length = 1 ∧ sumBy ivlSize closing.hub.intervals + 416 ≤ 32768 ∧ closing.hub.countTick = closing.hub.tick ∧
    ({ closing with hub := { tick := 1 } } : State).hub.countTick ≠ 1 ∧ run.tat.closes = [] := by decide
/-- I2C bus 1 on rail 1, with what the cure asks for, as the sensor buses stand. -/
def cureCfg (b : BusState) : State := reg (busIn b) (Pg.I2C 1) Off.I2C_I2C_CFG 0x010000B0
def curing (settling : Bool) (count : Nat) : State :=
  cureCfg { i2c := [(1, { stuck := true, cureCount := count })], rails := [(1, { curing := true, down := true, settling := settling })] }
theorem wit_I2cAlertsAndCure : alertReadable run 1 = false ∧ alertReadable (cureCfg { i2c := [(1, { alertLine := true })] }) 1 = true ∧
    15 ≤ (((cureCfg { i2c := [(1, { araTicks := List.replicate 15 0 })] }).i2c 1).araTicks.filter
      fun x => decide (run.hub.tick ≤ x + 5000000)).length ∧
    (hubIn { run := some (stepOf 0x11 0 .arb) }).hub.run = some (stepOf 0x11 0 .arb) ∧ (stepOf 0x11 0).wait ≠ .arb ∧
    (cureCfg {}).en (Pg.I2C 1) = true ∧ ((cureCfg {}).i2c 1).stuck = false ∧ i2cRail (cureCfg {}) 1 = 1 + 1 ∧
    (cureCfg {}).bit (Pg.I2C 1) Off.I2C_I2C_CFG 5 = true ∧ ((cureCfg {}).rail 1).curing = false ∧
    (run.i2c 1).stuck = false ∧ (reg run (Pg.I2C 1) Off.PAGE_CTRL 0).en (Pg.I2C 1) = false ∧
    ((curing false 0).rail 1).curing = true ∧ ((curing false 0).rail 1).settling = false ∧ ((curing true 0).rail 1).settling = true ∧
    ((stuckOn (curing true 0) 1).all fun b => (15#4).getLsbD (2 * b) && (15#4).getLsbD (2 * b + 1)) = true ∧
    ((stuckOn (curing true 0) 1).all fun b => (0#4).getLsbD (2 * b) && (0#4).getLsbD (2 * b + 1)) = false ∧
    ((stuckOn (curing true 0) 1).any fun b =>
      decide (((curing true 0).i2c b).cureCount < (curing true 0).fld (Pg.I2C b) Off.I2C_I2C_CFG 27 24)) = true ∧
    ((stuckOn (curing true 9) 1).any fun b =>
      decide (((curing true 9).i2c b).cureCount < (curing true 9).fld (Pg.I2C b) Off.I2C_I2C_CFG 27 24)) = false ∧
    Served (curing true 0) hk (Pg.I2C 1) Off.I2C_I2C_CMD 1 ∧ Served run hk Pg.GPIO Off.GPIO_RAIL_CTRL 0x11 := by
  refine ⟨?_, ?_, ?_, ?_, ?_, ?_, ?_, ?_, ?_, ?_, ?_, ?_, ?_, ?_, ?_, ?_, ?_, ?_, ?_, ?_, ?_⟩ <;>
    first | decide | (apply served_ok; decide)
/-- A character of 8 data bits and a parity bit, each sampled alike three times. -/
def charOf (par stop : Bool) : UartChar :=
  { samples := [7, 0, 7, 0, 0, 7, 0, 7, if par then 7 else 0], stop := stop }
def uartIn (x : UartState) : State := busIn { uart := [(3, x)] }
def sequencing (b : BusState) : State := reg (busIn b) Pg.ADC (Off.ADC_SEQ_CFG 3) 0x71
def charsOf (cfg : Word) : State := reg (uartIn { inChar := true }) (Pg.UART 3) Off.UART_UART_CFG cfg
theorem wit_UartAdcGpio : uartUsable run 3 = true ∧ (run.uart 3).inChar = false ∧ ((uartIn { inChar := true }).uart 3).inChar = true ∧
    uartUsable (reg run (Pg.UART 3) Off.PAGE_CTRL 0) 3 = false ∧ uartUsable (charsOf 3) 3 = true ∧ ((charsOf 3).uart 3).inChar = true ∧
    charBits 1 (charOf true true) = [true, false, true, false, false, true, false, true] ∧
    Word.fld 1 2 1 = 0 ∧ Word.fld 3 2 1 = 1 ∧
    charBits 3 (charOf true true) = [true, false, true, false, false, true, false, true, true] ∧
    decide (((charBits 3 (charOf true true)).filter id).length % 2 = 1) = true ∧
    decide (((charBits 3 (charOf false true)).filter id).length % 2 = 1) = false ∧
    (charBits 1 { samples := List.replicate 8 0, stop := false }).all not = true ∧
    (charOf true true).stop = true ∧ ((charsOf 1).uart 3).de = false ∧
    uartFraming (charsOf 1) 3 = 0 ∧ fifoLevel ((charsOf 1).uart 3) < 256 ∧ (charsOf 1).hub.run = none ∧ (charOf true false).stop = false ∧
    ((uartIn { de := true }).uart 3).de = true ∧ Word.bit 1 10 = false ∧
    ((uartIn { inFrame := true }).uart 3).inFrame = true ∧ (run.uart 3).inFrame = false ∧
    Served run hk (Pg.UART 3) Off.UART_UART_CMD 1 := by
  refine ⟨?_, ?_, ?_, ?_, ?_, ?_, ?_, ?_, ?_, ?_, ?_, ?_, ?_, ?_, ?_, ?_, ?_, ?_, ?_, ?_, ?_, ?_, ?_, ?_⟩ <;>
    first | decide | (apply served_ok; decide)
theorem wit_UartAdcGpio_sequences : seqDue (sequencing { seqNext := [(3, 0)] }) 3 = true ∧ seqDue run 3 = false ∧
    (sequencing {}).en Pg.ADC = true ∧ (reg (sequencing {}) Pg.ADC Off.PAGE_CTRL 0).en Pg.ADC = false ∧
    (sequencing { seqActive := [3] }).bus.seqActive.contains 3 = true ∧
    (sequencing {}).bus.seqActive.contains 3 = false ∧ run.bus.adcQueue = [] ∧
    (busIn { adcQueue := [.psq 7, .psq 1] }).bus.adcQueue = [.psq 7, .psq 1] ∧
    (hubIn { run := some (stepOf 7 0 .adc) }).hub.run = some (stepOf 7 0 .adc) ∧
    (busIn { adcQueue := [.seq 3 7] }).bus.adcQueue = [.seq 3 7] ∧ seqEntry run 3 7 < 32768 := by decide

/-! ## Witnesses: acquisition, event fabric, USB, LMF, HKP -/

def aqeIn (a : AqeState) : State := { run with aqe := a }
/-- A change of GPI15, of TSYNC_IN, and of a pin that does not exist. -/
def risen (pin : Nat) : TagChange := { pin := pin, level := true, phase := 31 }
/-- Profile 7: the change of DCH15 triggers, and one segment, segment 0. -/
def prof7 (s : State) (more : Word) : State :=
  reg (reg (reg (reg (reg s Pg.AQE (Off.AQE_PROF_A 7) (0xF03 ||| more)) Pg.AQE (Off.AQE_PROF_B 7) 5) Pg.AQE (Off.AQE_PROF_C 7) 0x8000)
    Pg.AQE (Off.AQE_PROF_D 7) 0) Pg.AQE (Off.AQE_PROF_E 7) 2
def profile7 : Profile := profileOf (prof7 run 0) 7
def recordOf (seg : Nat) : AqeRecord := { profile := 7, rseq := 0, segment := seg, late := false }
def arm7 (late : Bool) (a : AqeState) : State := { prof7 (aqeIn a) 0 with tat := { arms := [(7, late)] } }
theorem wit_AcquisitionRuns : Served (prof7 run 0) hk Pg.AQE Off.AQE_AQE_CMD 0xF ∧ (prof7 run 0).en Pg.AQE = true ∧
    storeFind (prof7 run 0).aqe.held (profileOf (prof7 run 0) 7).firstSeg = none ∧ (profileOf (prof7 run 0) 7).trigSrc ≠ 4 ∧
    Served (aqeIn { phase := .armed, prof := some profile7 }) hk Pg.AQE Off.AQE_AQE_CMD 0x10 ∧
    Served (aqeIn { phase := .armed, prof := some profile7 }) hk Pg.AQE Off.AQE_AQE_CMD 0x20 ∧
    (aqeIn { prof := some profile7 }).aqe.prof ≠ none ∧
    (aqeIn { prof := some profile7, cur := some (recordOf 3) }).aqe.cur = some (recordOf 3) ∧
    (arm7 true { phase := .armed }).tat.arms = [(7, true)] ∧ (arm7 true { phase := .armed }).aqe.phase ≠ .idle ∧
    (arm7 false {}).aqe.phase = .idle ∧ (arm7 false {}).en Pg.AQE = true ∧
    profileBad (arm7 false {}) (profileOf (arm7 false {}) 7) = false ∧ profileBad run (profileOf run 7) = true ∧
    run.tat.arms = [] ∧ isTrigger profile7 15 true = true ∧
    (lanesOf (reg run Pg.AQE (Off.AQE_DCH_SRC 3) 0x0F000000) (risen 15)).map (fun l => (l.lane, l.level, l.phase)) = [(15, true, 31)] ∧
    (0 : Nat) * 32 ≤ run.hub.tick * 32 + 31 ∧ run.aqe.prof = none ∧ run.aqe.cur = none ∧ profile7.armTmoMs ≠ 0 ∧
    (aqeIn { phase := .armed, prof := some profile7, armTick := 1 }).hub.tick < 1 + profile7.armTmoMs * 50000 ∧
    1 + profile7.armTmoMs * 50000 ≤ (hubIn { tick := 10 ^ 10 }).hub.tick ∧
    (recordOf 3).trigTime / 32 + profile7.postTicks ≤ (hubIn { tick := 10 ^ 10 }).hub.tick ∧
    { profile7 with armTmoMs := 0 }.armTmoMs = 0 ∧ profile7.rearm = false ∧
    (aqeIn { phase := .rearm, prof := some profile7 }).aqe.phase = .rearm ∧ profile7.trigSrc ≠ 4 ∧
    Served (aqeIn { held := [(0, recordOf 0)] }) hk Pg.AQE Off.AQE_SEG_CMD 1 := by
  refine ⟨?_, ?_, ?_, ?_, ?_, ?_, ?_, ?_, ?_, ?_, ?_, ?_, ?_, ?_, ?_, ?_, ?_, ?_, ?_, ?_, ?_, ?_, ?_, ?_, ?_, ?_, ?_, ?_, ?_⟩ <;>
    first | decide | (apply served_ok; decide)
/-- A held record to move, and a tenant for the mover. -/
def moveRec : State :=
  reg (reg (reg (aqeIn { held := [(3, { recordOf 3 with move := true })] }) Pg.AQE Off.AQE_AQE_CFG 0x100) (Pg.TEN 1) Off.TEN_TEN_CFG
    0x100185) Pg.BAT Off.BAT_BAT_CFG 1
theorem wit_AcquisitionRuns_move : moverTenant moveRec = some 1 ∧ moveRec.inRun = true ∧
    moveRec.bit Pg.AQE Off.AQE_AQE_CFG 8 = true ∧ moveRec.en Pg.AQE = true ∧
    (moveRec.aqe.held.filter fun e => e.2.move && !e.2.retry) = [(3, { recordOf 3 with move := true })] ∧
    moverTenant run = none := by decide
/-- Channel 47 enabled; with a gate that does not pass; offers of two channels to consumer 8, free or at work. -/
def chOn (cfg : Word) : State := reg run Pg.EVF (Off.EVF_CH_CFG 47) cfg
def offered (busy : List Nat) : State :=
  { run with evf := { offers := [{ ch := 3, consumer := 8, aonHome := true }, { ch := 9, consumer := 8, aonHome := true }] }
             bus := { seqActive := busy } }
theorem wit_EventFabric : Served run hk Pg.EVF (Off.EVF_CH_CFG 47) 1 ∧ Served run hk Pg.EVF (Off.EVF_CH_FIRE 47) 1 ∧
    run.chEn 47 = false ∧ chRuns (chOn 1) 47 = true ∧ gatePasses (chOn 1) 47 = true ∧
    chRuns (chOn 9) 47 = true ∧ gatePasses (chOn 9) 47 = false ∧ chFormed (chOn 9) 47 = false ∧
    chFormed { chOn 1 with evf := { formed := [(47, cycleNow (chOn 1))] } } 47 = true := by
  refine ⟨?_, ?_, ?_, ?_, ?_, ?_, ?_, ?_, ?_⟩ <;> first | decide | (apply served_ok; decide)
theorem wit_EventFabric_offers : (takeOffers (offered []) 8 [3, 9]).1 = [3, 9] ∧
    (∀ o, o ∈ run.evf.offers → o.consumer = 8 → cycleNow run < o.due) ∧ (chOn 3).chCfg 47 = 3 ∧ Word.bit 3 1 = true ∧ Word.bit 1 1 = false ∧
    consAon 8 = true ∧ consAon 13 = true ∧ consAon 32 = false ∧
    consBusy (takeOffers (offered []) 8 [3, 9]).2 8 = false ∧ consBusy (takeOffers (offered [0]) 8 [3, 9]).2 8 = true ∧
    (takeOffers (offered []) 8 [4]).1 = [] ∧ ServedRead run fr Pg.EVF (Off.EVF_FCAP_NS 3) ∧
    ServedRead run fr Pg.EVF (Off.EVF_ACAP_LO 3) := by
  refine ⟨?_, ?_, ?_, ?_, ?_, ?_, ?_, ?_, ?_, ?_, ?_, ?_, ?_⟩ <;> first | decide | (apply served_ok; decide) | (apply served_read_ok; decide)
def usbIn (u : UsbState) : State := { run with usb := u }
def dnIn (p : DnPort) : State := usbIn { hubStarted := true, up := .configured, ports := [(1, p)] }
theorem wit_UsbHub : (usbIn { hubStarted := true }).usb.hubStarted = true ∧ run.en Pg.USBH = true ∧ run.usb.up = .detached ∧
    run.usb.hubStarted = false ∧ closeSession (onUsb run fun x => usbUnplugged { x with vbus := false }) =
      closeSession (onUsb run fun x => usbUnplugged { x with vbus := false }) ∧
    (usbIn { up := .attached }).usb.up ≠ .detached ∧ run.coreOn = true ∧ park.coreOn = false ∧
    (usbIn { up := .attached, suspended := true }).usb.suspended = true ∧ (usbIn { up := .default }).usb.up = .default ∧
    run.bit Pg.USBH Off.USBH_USBH_CFG 0 = false ∧
    (reg run Pg.USBH Off.USBH_USBH_CFG 1).bit Pg.USBH Off.USBH_USBH_CFG 0 = true ∧ hubTalks (usbIn { up := .address }) = true ∧
    hubTalks run = false ∧ run.usb.suspended = false ∧ park.pwr.state = .park ∧
    ({ park with usb := { parkAttached := true, parkPermission := true, rwakeReq := true } } : State).usb.parkAttached = true ∧
    park.usb.parkAttached = false ∧ park.usb.parkPermission = false ∧ run.usb.rwakeReq = false ∧
    (usbIn { suspended := true, rwakeHub := true, rwakeLmf := true, rwakeReq := true }).pwr.state ≠ .park ∧
    ((dnIn { ocN := true }).dn 1).ocN = true ∧ ((dnIn { ocN := false, overCurrent := true }).dn 1).overCurrent = true ∧
    ((dnIn { ocN := false }).dn 1).ocN = false ∧ ((dnIn {}).dn 1).overCurrent = false ∧ hubTalks (dnIn {}) = true ∧
    (reg (dnIn {}) Pg.USBH Off.USBH_USBH_CFG 6).bit Pg.USBH Off.USBH_USBH_CFG 2 = true ∧
    (reg (dnIn {}) Pg.USBH Off.USBH_USBH_CFG 0).bit Pg.USBH Off.USBH_USBH_CFG 2 = false := by
  refine ⟨?_, ?_, ?_, ?_, rfl, ?_⟩ <;> decide
/-- The LMF as configured device, and a SETUP packet of each vendor request. -/
def lmfOn (u : UsbState) : State := usbIn { u with hubStarted := true, up := .configured, lmfPower := true }
def setupOf (t r : Byte) (index : BitVec 16) (len : Nat) : Setup :=
  { reqType := t, request := r, value := 0x0100, index := index, length := len }
def outOf (lseq : Nat) (kind : Nat) : LmfFrame :=
  { lseq := lseq, byte2 := 0, kind := kind, length := 32, ack := 0, bytes := List.replicate 32 0 }
theorem wit_LmfRequests : lmfTalks (lmfOn {}) = true ∧ lmfTalks run = false ∧ (lmfOn {}).usb.haltOut = false ∧
    (lmfOn { haltOut := true }).usb.haltOut = true ∧ (2 : Nat) ∉ [0x01, 0x81, 0x82] ∧ lmfServes run = false ∧
    lmfServes (lmfOn {}) = true ∧ regSetupHolds (setupOf 0xC0 0x01 1 4) 0xC0 0x01 8 = false ∧
    regSetupHolds (setupOf 0xC0 0x01 1 8) 0xC0 0x01 8 = true ∧ regSetupHolds (setupOf 0x40 0x02 1 3) 0x40 0x02 4 = false ∧
    regSetupHolds (setupOf 0x40 0x02 1 4) 0x40 0x02 4 = true ∧ List.length [(1 : Word), 2] * 4 ≠ 4 ∧
    (lastAnswer (regWriteAcc (lmfOn {}) (setupReq (setupOf 0x40 0x02 0 4)) (addr Pg.SYS Off.SYS_PATH_EN) 7) .lmf).code ≠ 0 ∧
    (lastAnswer (regWriteAcc (reg (lmfOn {}) Pg.DRAM Off.PAGE_OWNER 0) (setupReq (setupOf 0x40 0x02 0 4))
      (addr Pg.DRAM Off.DRAM_SCRUB_CFG) 0x1A8) .lmf).code = 0 ∧
    (lmfOn {}).lmfLive = true ∧ (lmfOn {}).inRun = true ∧ (lmfOn {}).usb.bulk.length < 8 ∧ outFault (outOf 0 1) ≠ 0 ∧
    outFault (outOf 0 0) = 0 ∧ (0 % 65536 + 65536 - (lmfOn {}).usb.outExp) % 65536 = 0 ∧
    32768 ≤ ((0 : Nat) % 65536 + 65536 - (lmfOn { outExp := 32768 }).usb.outExp) % 65536 ∧
    ((0 : Nat) % 65536 + 65536 - (lmfOn { outExp := 65535 }).usb.outExp) % 65536 = 1 ∧
    8 ≤ (lmfOn { bulk := List.replicate 8 (0, outOf 0 0) }).usb.bulk.length ∧ (lmfOn { ackOwed := true }).usb.ackOwed = true ∧
    run.usb.ackOwed = false ∧ Served run hk Pg.LMF Off.LMF_LMF_CMD 1 := by
  refine ⟨?_, ?_, ?_, ?_, ?_, ?_, ?_, ?_, ?_, ?_, ?_, ?_, ?_, ?_, ?_, ?_, ?_, ?_, ?_, ?_, ?_, ?_, ?_, ?_, ?_, ?_⟩ <;>
    first | decide | (apply served_ok; decide)
/-- A mailbox message of a type with a body, in the mailbox of an LMF session, under an accepted image. -/
def msgOf (t : Byte) (body : List Byte) : List Byte := [0, t, 0, 9, 0, 0, BitVec.ofNat 8 (body.length / 256), BitVec.ofNat 8 body.length] ++ body
def boxOf (sec : Bool) (msg : List Byte) : Mailbox := { lmf := true, opTag := none, sec := sec, msg := msg }
def mbIn (image : Option OpenImage) (m : Mailbox) : State :=
  { usbIn { mailbox := some m, image := image } with pwr := { run.pwr with image := true } }
abbrev waits (image : Option OpenImage) (sec : Bool) (t : Byte) (body : List Byte) : Prop :=
  mbWaiting (mbIn image (boxOf sec (msgOf t body))) t.toNat = some (boxOf sec (msgOf t body))
def imgBody (target : Byte) (total : Byte) : List Byte := [target, 0, 0, 0, 0, 0, 0, total]
theorem wit_HkpMailbox_out : lmfServes (lmfOn {}) = true ∧ lmfServes run = false ∧
    setupHolds { setupOf 0x40 0x03 0 8 with value := 0 } 0x40 0x03 = true ∧ setupHolds (setupOf 0x40 0x02 0 8) 0x40 0x03 = false ∧
    (8 : Nat) ≤ 8 ∧ List.length (List.replicate 8 (0 : Byte)) = 8 ∧ (lmfOn {}).usb.mailbox = none ∧
    (lmfOn { mailbox := some (boxOf false []) }).usb.mailbox ≠ none ∧ run.fld Pg.HKP Off.ERR_CODE 7 0 = 0 ∧
    setupHolds { setupOf 0xC0 0x03 0 4096 with value := 0 } 0xC0 0x03 = true ∧
    { boxOf false [] with reply := some [1] }.reply = some [1] ∧ (boxOf false []).lmf = true ∧ (boxOf false []).reply = none ∧
    mbWaiting run 0x0001 = none ∧ mbWaiting run 0x0010 = none ∧ mbWaiting run 0x0011 = none ∧ mbWaiting run 0x0012 = none := by
  decide
/-- For each message, the cases: its length, and what IMG_BEGIN, IMG_DATA and IMG_END look at. -/
theorem wit_HkpMailbox : waits none false 1 [7] ∧ mbLen (msgOf 1 [7]) ≠ 0 ∧ waits none false 1 [] ∧ mbLen (msgOf 1 []) = 0 ∧
    waits none true 0x10 (imgBody 4 160) ∧ waits none true 0x10 (imgBody 4 159) ∧ waits none false 0x10 (imgBody 1 160) ∧
    waits none true 0x10 (imgBody 5 160) ∧ mbLen (msgOf 0x10 (imgBody 4 160)) = 8 ∧
    beNat (((msgOf 0x10 (imgBody 4 160)).drop 12).take 4) = 160 ∧ (((msgOf 0x10 (imgBody 4 160)).drop 8).headD 0).toNat = 4 ∧
    waits none true 0x11 [0, 0, 0, 0] ∧ mbLen (msgOf 0x11 [0, 0, 0, 0]) < 5 ∧ waits none true 0x11 [0, 0, 0, 0, 5] ∧
    waits (some { target := 4, total := 1 }) true 0x11 [0, 0, 0, 0, 5] ∧
    waits (some { target := 4, total := 1, data := [5] }) true 0x11 [0, 0, 0, 0, 5] ∧
    waits (some { target := 4, total := 0 }) true 0x11 [0, 0, 0, 0, 5] ∧ waits none true 0x12 [1] ∧ waits none true 0x12 [] ∧
    waits (some { target := 4, total := 1 }) true 0x12 [] ∧ waits (some { target := 0, total := 0 }) true 0x12 [] := by decide
/-- The image received in full is the one that passes every check; or the one that fails. -/
theorem wit_HkpMailbox_image : imageFault fused { readOk := true, bytes := goodImage.bytes } = 0 ∧
    imageFault fused { readOk := true, bytes := badImage.bytes } ≠ 0 :=
  ⟨goodImage_passes, by rw [show ({ readOk := true, bytes := badImage.bytes } : ImageRead) = badImage from rfl, badImage_fails]; decide⟩
theorem wit_HkpMailbox_done : (mbIn none (boxOf true (msgOf 1 []))).usb.mailbox = some (boxOf true (msgOf 1 [])) ∧
    hkpServes (mbIn none (boxOf true [])) = true ∧ hkpServes run = false ∧
    { boxOf true [] with composed := some [1] }.composed = some [1] ∧ (boxOf true []).composed = none ∧ mbWhole (msgOf 2 [3]) = true ∧
    mbWhole [0] = false ∧ mbType (msgOf 1 []) ∈ [0x0001, 0x0010, 0x0011, 0x0012] ∧
    mbType (msgOf 2 [3]) ∉ [0x0001, 0x0010, 0x0011, 0x0012] ∧ { boxOf true [] with opTag := some 7 }.opTag = some 7 ∧
    (boxOf true []).opTag = none ∧ { boxOf true [] with lmf := false }.lmf = false ∧ run.usb.mailbox = none ∧
    run.fratra.ops.all (fun e => decide (e.2.phase ≠ .mailbox)) = true := by decide

/-! ## Witnesses: the machine as a whole -/

theorem aonPage_ranges {page : Nat} (h : aonPage page = true) : ¬ (0x010 ≤ page ∧ page < 0x014) ∧ ¬ (0x040 ≤ page ∧ page < 0x080) := by
  have key : ∀ p, p < 0x80 → (0x010 ≤ p ∧ p < 0x014) ∨ (0x040 ≤ p ∧ p < 0x080) → aonPage p = false := by decide
  constructor <;> intro hr
  · simp [key page (by omega) (.inl hr)] at h
  · simp [key page (by omega) (.inr hr)] at h
theorem park_shows_no_level (page : Nat) : levelMask park page = 0 := by
  unfold levelMask
  cases ha : aonPage page with
  | false => rfl
  | true =>
    have h2 := aonPage_ranges ha
    have n (q : Nat) (hq : aonPage q = false) : page ≠ q := fun e => by rw [e, hq] at ha; cases ha
    rw [if_neg (by decide), if_neg (n _ (by decide)), if_neg (n _ (by decide)), if_neg (n _ (by decide)),
      if_neg (n _ (by decide)), if_neg (n _ (by decide)), if_neg (n _ (by decide)), if_neg (n _ (by decide)), if_neg h2.1]
    by_cases hb : page = Pg.BAT
    · rw [if_pos hb]; rfl
    · rw [if_neg hb]
      by_cases hu : 0x0C4 ≤ page ∧ page < 0x0C8
      · rw [if_pos hu]; rfl
      · rw [if_neg hu, if_neg h2.2]
theorem wit_LevelsStayShown : LevelsShown park ∧ ∃ t, step { park with pending := [.wakeIn] } = .next t :=
  ⟨fun page => by rw [park_shows_no_level]; simp, _, rfl⟩

/-! ## Well-formedness: each check refuses an ill-formed term, just past its range -/

/-- An access in the name of a tenant that does not exist. -/
def noOne : Req := { path := .lmf, tenant := 64 }
def refused (l : List Instr) : Bool := l.all fun i => !wellFormed i
def wNoOne : Word → List Instr := fun w =>
  [.park noOne w, .warm noOne w, .wdtKick noOne w, .step noOne w, .set noOne w, .stateLoad noOne w, .ftRdNs noOne, .read noOne w,
   .write noOne w, .cancel noOne w, .tatCfg noOne w, .load noOne w, .generate noOne w, .zeroize noOne w, .check_ noOne w,
   .go noOne w, .sessNonceRead noOne, .sessOpen noOne w, .sessClose noOne w, .save noOne w, .gleanCfg noOne w, .lunCmd noOne w] ++
  [.acdRetrain noOne w, .widthSet noOne w, .adopt noOne w, .takeover noOne w, .forget noOne w, .tickLo noOne, .hostWakeRelease noOne w,
   .railCtrl noOne w, .arm noOne w, .force noOne w, .stop noOne w, .segCmdFree noOne w]
def wNoOneAt : List Instr :=
  [.corrRingRead noOne 0, .registerWrite noOne 0 0, .errCodeRead noOne 0, .counterRead noOne 0, .irqFlag noOne 0 0, .irqForce noOne 0 0,
   .irqEn noOne 0 0, .pageOwner noOne 0 0, .softRst noOne 0 0, .pageCtrlEn noOne 0 0, .portCfg noOne 0 0, .txTsNs noOne 0] ++
  [.tenCfg noOne 0 0, .tenBind noOne 0 0, .reset noOne 0 0, .purge noOne 0 0, .nchRetrain noOne 0 0, .almCmpHi noOne 0 0,
   .almCmpLo noOne 0 0, .clrStuck noOne 0 0, .rxFlush noOne 0 0, .chCfg noOne 0 0, .fire noOne 0 0, .fcapRead noOne 0, .acapRead noOne 0]
theorem test_wellFormed_requester : refused (wNoOne 0) = true ∧ refused wNoOneAt = true ∧ refused [.seqReset noOne 0] = true := by decide
theorem test_wellFormed_window : refused
    [.registerWrite hk 0x1000000 0, .counterRead hk 0x1000000, .errCodeRead hk 4096, .irqFlag hk 4096 0, .irqForce hk 4096 0,
     .irqEn hk 4096 0, .coalTimerExpire 4096 0, .coalTimerExpire 0 4, .pageOwner hk 4096 0, .softRst hk 4096 0, .softRstDone 4096,
     .pageCtrlEn hk 4096 0, .corrRingRead hk 64, .tsyncInEdge 32] = true := by decide
theorem test_wellFormed_ethernet : refused
    [.portCfg hk 4 0, .linkUp 4 { speed := 0, anDone := false, fecLock := false, halfDuplex := false }, .linkDown 4 ⟨false, false⟩ [],
     .rxFrameStart 4 [], .rxFrameStart 0 (List.replicate 65 0), .rxFrameEnd 4 [] ⟨false, 0, 0⟩, .pause 4 0, .pause 0 65536,
     .pfc 4 0 (List.replicate 8 0), .pfc 0 0 (List.replicate 7 0), .pfc 0 0 (List.replicate 8 65536), .pauseExpire 4 none,
     .pauseExpire 0 (some 8), .pauseRefresh 4, .txFrameDone 4 [], .txTsNs hk 4] = true := by decide
def badStream : StreamId := { tenant := 64, client := 0, stream := 0 }
theorem test_wellFormed_tenants : refused
    [.progressResponse badStream, .streamIdle badStream, .tenCfg hk 64 0, .tenBind hk 64 0, .reset hk 64 0, .resetDone 64, .purge hk 64 0,
     .purgeDone 64, .lagHigh 64] = true := by decide
def cwOf (lun step : Nat) : CwRead :=
  { lun := lun, journal := false, block := 0, pos := 0, step := step, entry := 0, bits := 0, patrol := false, tenant := none, names := [] }
def popOf (lun : Nat) : Population := { dramGib := 8, luns := [(lun, part1, 800)], trains := [], hrvRate := 0 }
theorem test_wellFormed_flash : refused
    [.harvestLunDrop 512, .harvestProgFail 512, .harvestDone 65536 0, .populationDiscovery (popOf 512), .eraseDone 512 0, .eraseFail 512 0,
     .codewordRead (cwOf 512 1), .codewordRead (cwOf 0 5), .gleaning 512, .refresh 512, .wearMove 512, .switch 512, .nchRetrain hk 16 0,
     .retrainDone 16 none, .commandTimeout 512] = true := by decide
theorem test_wellFormed_accord : refused
    [.ts1 { ts1Of 0 0 false false with lane := 4 }, .ts2 4 0 0, .width 3 0, .linkFlit { flitOf 0 false false with credits := [] },
     .lockLost 4, .mirror 64 0 (mirrorOf 0x10 []), .mirrorAck 64 0 0, .notice 256 0 0, .incident 64 0, .portMacs [] 0,
     .relay { kind := 2, port := 4 } [], .keyReq { tenant := 64, nameLost := false, key := [], version := 0, ranges := [] },
     .keyData { dataOf 0 with tenant := 64 }, .divList 64 false [], .divEnd 64 0, .twinHeartbeat { port := 4, frame := [] }] = true := by
  decide
theorem test_wellFormed_island : refused
    [.almCmpHi hk 4 0, .almCmpLo hk 4 0, .alarm 4, .taskDue 16, .debouncedEdge [(32, true)], .seqTimeout 32, .batchClose 64, .alert 2,
     .alertRead 2 .stretch false, .alertRetry 2, .busStuck 2 true true, .pwrCycleEnd 2, .railSettleEnd 2 0, .clrStuck hk 2 0,
     .characterReceived 4 (charOf true true), .frameIdle 4, .rxFlush hk 4 0, .startBit 4 7, .conversion 4096, .sequenceStart 4,
     .gpoPulseEnd 8] = true := by decide
theorem test_wellFormed_aqe_fabric_usb : refused
    [.taggedChange [risen 35], .taggedChange [{ risen 34 with phase := 32 }], .chCfg hk 48 0,
     .fire hk 48 0, .offerTaken 64 [], .offerTaken 0 [48], .fcapRead hk 4, .acapRead hk 4, .overcurrent 2, .ocRelease 2, .portPower 2 true,
     .setConfiguration 256, .setFeatureEndpointHalt 2, .clearFeatureEndpointHalt 2, .regRead (setupOf 0xC0 1 1 65536),
     .regWrite (setupOf 0x40 2 1 65536) [], .hkpMailboxOut (setupOf 0x40 3 0 65536) [], .hkpMailboxIn (setupOf 0xC0 3 0 65536),
     .outPacket (outOf 65536 0), .outPacket { outOf 0 0 with length := 65536 }, .outPacket { outOf 0 0 with ack := 65536 }] = true := by decide
/-- The last values of those ranges are well formed. -/
theorem test_wellFormed_ends : (([.registerWrite lm1 0xFFFFFC 0, .irqFlag hk 4095 0, .portCfg hk 3 0, .tenCfg hk 63 0, .gleaning 511,
    .lockLost 3, .alarm 3, .taskDue 15, .conversion 4095, .offerTaken 63 [47], .portPower 3 true, .width 4 15] : List Instr).all wellFormed)
      = true := by decide

/-! ## The table gives no bits -/

theorem test_no_word_spells_a_command : decodeTableWord 32 0xFFFFFFFF = none ∧ decodeTableWord 0 0 = none ∧
    (State.reset.withFetchWord 32 0xFFFFFFFF).pending = [] := by decide

/-! ## Single commands, with the values of the manual's worked examples -/

/-- The state that a command leaves. -/
def after (s : State) (c : Instr) : State :=
  match exec c s with
  | .next t => t
  | _ => s
/-- What an HKP read of a register gives. -/
def seen (s : State) (b : Block) (page off : Nat) : Word := (readValue s .hkp b (page - blockPage b) page off).1

/-- R2, worked example: MAC2+0x120, and PAGE_OWNER of TEN05. -/
theorem test_absolute_address : addr (Pg.MAC 2) 0x120 = 0x12120 ∧ addr (Pg.TEN 5) Off.PAGE_OWNER = 0x45008 := by decide
/-- "A rejected write on bus 3117": TEN02 owned by tenant 2, written at 0x100 by LMF identity TC4. -/
def handedOver : State := reg run (Pg.TEN 2) Off.PAGE_OWNER 2
def lm4 : Req := { path := .lmf, tenant := 4 }
def lm2 : Req := { path := .lmf, tenant := 2 }
theorem test_rejected_write : (after handedOver (.tenCfg lm4 2 0x1001AD)).reg (Pg.TEN 2) Off.ERR_CODE = 0x02104080 ∧
    (lastAnswer (after handedOver (.tenCfg lm4 2 0x1001AD)) .lmf).code = 0x80 ∧
    (after handedOver (.tenCfg lm4 2 0x1001AD)).reg Pg.SYS Off.SYS_REJ_LAST_ADDR = 0x42100 ∧
    (after handedOver (.tenCfg lm4 2 0x1001AD)).tenActive 2 = false := by decide +kernel
theorem test_err_code_read : (lastAnswer (after (reg handedOver (Pg.TEN 2) Off.ERR_CODE 0x02104080) (.errCodeRead lm2 0x042)) .lmf).value
      = 0x02104080 ∧
    (after (reg handedOver (Pg.TEN 2) Off.ERR_CODE 0x02104080) (.errCodeRead lm2 0x042)).reg (Pg.TEN 2) Off.ERR_CODE = 0 := by decide +kernel
/-- "Trimming "A" by 12.5 ppm": one cycle adds 1 ns and 53,687 units. -/
theorem test_trim_cycle : ((done (idleCycle (reg run Pg.TIME Off.TIME_FT_ADDEND 0xD1B7)) : Host.Outcome State Fault Refusal) matches .next _)
      = true ∧
    (idleCycle (reg run Pg.TIME Off.TIME_FT_ADDEND 0xD1B7)).ft.ns = 1 ∧
    (idleCycle (reg run Pg.TIME Off.TIME_FT_ADDEND 0xD1B7)).ft.sub = 53687 := by decide +kernel
/-- "Bus 3117 parks and wakes": entry 10, due at 23:45:00 and every 900 s, at the lateness pass of 04:31:40. -/
def parked10 : State :=
  { reg run Pg.TAT Off.TAT_TAT_CFG 0xC001 with
    ft := { mode := .ptp, ns := 17200 * 1000000000 }
    tat := { loaded := true, passDue := true, entries := [(10, { t := 0, kind := 0, periodMs := 900000, persist := true, status := .armed })] } }
theorem test_lateness_pass : (storeFind (after parked10 .latenessPass).tat.entries 10).map TatEntry.t = some (18000 * 1000000000) ∧
    (after parked10 .latenessPass).tat.last.map FireRec.missed = some 20 ∧
    (after parked10 .latenessPass).tat.last.map FireRec.late = some true := by decide +kernel
/-- "Provisioning TC3": TEN_BIND, then TEN_CFG. -/
theorem test_provisioning : (lastAnswer (after run (.tenBind hk 3 0x00090067)) .hkp).code = 0 ∧
    (after (reg run (Pg.TEN 3) Off.TEN_TEN_BIND 0x00090067) (.tenCfg hk 3 0x1001AD)).tenActive 3 = true ∧
    (after (reg run (Pg.TEN 3) Off.TEN_TEN_BIND 0x00090067) (.tenCfg hk 3 0x1001AD)).burstMax 3 = 16 := by decide +kernel
/-- "Steering on bus 3117": entries 0 and 3; a camera frame on VLAN 103, and one that claims TENANT 1 there. -/
def steered : State :=
  reg (reg (reg (reg listening Pg.STEER (Off.STEER_STE_W0 0) 0x80968065) Pg.STEER (Off.STEER_STE_W1 0) 0x000188B5) Pg.STEER
    (Off.STEER_STE_W0 3) 0x82968067) Pg.STEER (Off.STEER_STE_W1 3) 0x000388B5
def camera (vid tenant : Byte) : List Byte :=
  List.replicate 6 2 ++ [2, 0, 0, 0, 0, 1, 0x81, 0, 0, vid, 0x88, 0xB5, 0x12, tenant] ++ List.replicate 46 0
theorem test_steering : steerQueue steered 3 (steered.readHead 3 (camera 103 3)) = some 2 ∧
    steerQueue steered 3 (steered.readHead 3 (camera 101 1)) = some 0 ∧
    steerQueue steered 3 (steered.readHead 3 (camera 103 1)) = none := by decide +kernel
/-- Table 5.14: a frame of 63 bytes is a runt; one of 64 with a good FCS ends well, as a frame not admitted. -/
theorem test_frame_lengths :
    (after (setPort listening 3 { link := true, rx := some (pend 0 false false none) }) (.rxFrameEnd 3 (frame64.drop 1) ⟨false, 0, 0⟩)).ctr (Pg.MAC 3) 0x068
      = 1 ∧
    (after (setPort listening 3 { link := true, rx := some (pend 0 false false none) }) (.rxFrameEnd 3 frame64 ⟨false, 0, 0⟩)).ctr (Pg.MAC 3) 0x0B0
      = 1 := by decide +kernel
/-- The check values of the three CRCs, over "123456789", and SHA-256 of "abc" (FIPS 180-4). -/
def digits9 : List Byte := [0x31, 0x32, 0x33, 0x34, 0x35, 0x36, 0x37, 0x38, 0x39]
theorem test_crc : crc32 digits9 = 0xCBF43926 ∧ crc32c digits9 = 0xE3069283 ∧ crc16 digits9 = 0x29B1 := by decide +kernel
theorem test_sha256 : (sha256 [0x61, 0x62, 0x63]).take 8 = [0xBA, 0x78, 0x16, 0xBF, 0x8F, 0x01, 0xCF, 0xEA] := by decide +kernel
/-- The signature of "sample" under P-256 and SHA-256 (RFC 6979, A.2.5), and the same signature of another message. -/
def sampleSig (m : List Byte) : Bool :=
  ecdsaOk 0x60FED4BA255A9D31C961EB74C6356D68C049B8923B61FA6CE669622E60F29FB6
    0x7903FE1008B8BC99A41AE9E95628BC64F2F1B20C2D7E9F5177A3C294D4462299
    0xEFD48B2AACB6A8FD1140DD9CD45E81D69D2C877B56AAF991C34D0EA84EAF3716
    0xF7CB1C942D657C41D436C7A1B6E29F65F3E900DBB9AFF4064DC4AB2F843ACDA8 m
theorem test_ecdsa : sampleSig [0x73, 0x61, 0x6D, 0x70, 0x6C, 0x65] = true ∧ sampleSig [0x74, 0x65, 0x73, 0x74] = false := by decide +kernel
/-- "The 05:00:00 fare change": the stage takes pool entry 192 and identifier 7. -/
def swapping : State :=
  { reg keyed3 Pg.TAT Off.TAT_TAT_CFG 0xC001 with ft := { mode := .ptp, goodRun := 4 }, fratra := { keyed3.fratra with nextSwap := 7 } }
def fareSwap : Swap := { tenant := 1, aliasKey := [1], target := [2], ns := 5000000000, ident := 0, entry := none, skipLate := false }
theorem test_swap_stage : (stageSwap swapping fareSwap none { kind := 0 }).1 = 192 * 65536 + 7 ∧
    ((stageSwap swapping fareSwap none { kind := 0 }).2.fratra.swaps.map fun w => (w.entry, w.ident)) = [(some 192, 7)] ∧
    (storeFind (stageSwap swapping fareSwap none { kind := 0 }).2.tat.entries 192).map TatEntry.t = some 5000000000 := by decide +kernel
/-- "Capacity of "A"": one of its LUNs, and the key index of its 32 GiB. -/
def lunA : Lun := { part := { part1 with pages := 1536, planes := 4 }, good := 5461 }
def stateA : State := { run with ftl := { luns := [(168, lunA)], hrvBlk := 1, formatted := true, dram := { gib := 32 } } }
theorem test_capacity : dataBlocks stateA lunA = 5444 ∧ spareOf 7 5444 = 382 ∧ lunSheaves stateA 7 lunA = 121488 ∧
    keyCap stateA = 626349397 ∧ nameRsv stateA = 305835 := by decide +kernel
/-- "A die fails on "A"": the third timeout of LUN 168 sets bit 8 of FAILED_MAP5. -/
def timedOut : State := setLun stateA 168 { lunA with timeouts := 2 }
theorem test_die_fails : seen (after timedOut (.commandTimeout 168)) .hlth Pg.HLTH (Off.HLTH_FAILED_MAP 5) = 0x100 ∧
    lunRank 168 = 37 ∧ (after timedOut (.commandTimeout 168)).ftl.health.failedDies = 1 ∧
    ((after stateA (.commandTimeout 168)).lun 168).failed = false := by decide +kernel
/-- "Sizing the bank of "A" at 33 W", step 5, with its words of step 6 and 2,640 µF. -/
def bankA : State :=
  { reg (reg run Pg.HRV Off.HRV_BANK_CFG1 0x005A2EE0) Pg.HRV Off.HRV_BANK_CFG2 0x0FA0014A with
    hrv := { cMeas := some 2640, vBank := 32000, rateMBs := 25000 } }
theorem test_bank_sizing : dMax bankA = 717000000 ∧ dMaxMargin bankA = 573600000 ∧ bankWeak bankA = false := by decide +kernel
/-- "A pulled Accord cable": the grace ends, and at epoch 9 rank 0 goes on with 11 and rank 1 with 10. -/
def pulled (straps : BitVec 5) : State :=
  { run with pwr := { run.pwr with straps := straps }, acd := { epoch := 9, twinEpoch := 9, pair := .paired, grace := true, ethPath := true } }
theorem test_split_epoch : (after (pulled 0) .retrainGraceExpire).acd.epoch = 11 ∧ (after (pulled 1) .retrainGraceExpire).acd.epoch = 10 ∧
    (after (pulled 0) .retrainGraceExpire).acd.pair = .split ∧
    (after { pulled 0 with acd := { (pulled 0).acd with ethPath := false } } .retrainGraceExpire).acd.pair = .isolated := by decide +kernel
/-- "Polling the accelerometer": step 20's words; X is bytes 0 and 1, little-endian and signed. -/
def polling : State := hubIn { run := some { task := 0, step := 20, w0 := 0x02251903, w1 := 0xD0000028 } }
theorem test_accelerometer : (after polling (.i2cRegrd (.ok [0x10, 0xFF, 1, 2, 3, 4]))).streamVal 8 = 0xFFFFFF10 ∧
    (after polling (.i2cRegrd (.ok [0x10, 0xFF, 1, 2, 3, 4]))).hub.readBuf = [0x10, 0xFF, 1, 2, 3, 4] ∧
    (after polling (.i2cRegrd (.nak 0))).hub.run = none := by decide +kernel
/-- "Door 1 on bus 3117": GPI1 rises 0.4 s after GPI0, with recogniser 0 at progress 1. -/
def door : State :=
  { reg (reg (reg run Pg.REC (Off.REC_REC_CFG0 0) 0x00201004) Pg.REC 0x800 0x80) Pg.REC 0x804 0x05DC0081 with
    hub := { tick := 20000000, recogs := [(0, { progress := 1 })] }, bus := { gpiIn := 1 } }
theorem test_boarding : seen (after door (.debouncedEdge [(1, true)])) .recog Pg.REC (groupOff 0 0) = 1 ∧
    seen (after door (.debouncedEdge [(1, true)])) .recog Pg.REC Off.REC_OCCUPANCY = 1 ∧
    seen (after door (.debouncedEdge [(0, false)])) .recog Pg.REC (groupOff 0 0) = 0 := by decide +kernel
/-- "Catching a late boarder": the record's two entries, from the trigger at tick 0, phase 19. -/
theorem test_record_entries : packEntries 19 [.dig (6000000 * 32 + 3) 1 false false, .dig (12500000 * 32 + 8) 3 false false] =
    [[0x0B, 0x71, 0xAF, 0xF0, 0, 0, 0, 1], [0x0C, 0x65, 0xD4, 0x05, 0, 0, 0, 3]] := by decide +kernel
/-- "The jerk alarm": CH5 lies at 0x64A0; its words pass, and a fire offers to consumers 13, 32 and 33; with MODE DIRECT EN = 1 is
rejected. -/
def ch5 : State :=
  reg (reg (reg run Pg.EVF 0x4A8 0x10) Pg.EVF 0x4B0 0x2000) Pg.EVF 0x4B4 3
theorem test_channel5 : addr Pg.EVF (Off.EVF_CH_CFG 5) = 0x64A0 ∧ (lastAnswer (after ch5 (.chCfg hk 5 7)) .hkp).code = 0 ∧
    (lastAnswer (after ch5 (.chCfg hk 5 5)) .hkp).code ≠ 0 ∧
    (after (reg ch5 Pg.EVF (Off.EVF_CH_CFG 5) 7) (.fire hk 5 1)).evf.offers.map Offer.consumer = [13, 32, 33] := by decide +kernel
/-- "A host driver restart": the SETUP packet of step 1, and the result of step 2. -/
theorem test_lmf_register_read : (after (lmfOn { outExp := 0x0112, inNext := 0x0031 })
      (.regRead { reqType := 0xC0, request := 1, value := 0x1108, index := 0x0E00, length := 8 })).usb.ep0 =
    some [0, 0, 0, 0, 0, 0x31, 0x01, 0x12] := by decide +kernel
/-- R411: the code of a conversion is its channel's result. -/
theorem test_conversion : (after (busIn { adcQueue := [.psq 7] }) (.conversion 0xABC)).bus.adcQueue = [] ∧
    (seen (after (busIn { adcQueue := [.psq 7] }) (.conversion 0xABC)) .adc Pg.ADC (Off.ADC_RESULT 7)).fld 11 0 = 0xABC := by decide +kernel

/-- R331, R348: the last lane of an ACTIVE link loses lock; the link leaves ACTIVE and the grace runs. -/
theorem test_last_lane_lost :
    (after (link { train := 5, lanes := [(0, { locked := true, inUse := true })] }) (.lockLost 0)).acd.train = 1 ∧
    (after (link { train := 5, lanes := [(0, { locked := true, inUse := true })] }) (.lockLost 0)).acd.grace = true := by decide +kernel
/-- R308: with the hold-up bank unknown a DELETE is not taken, and a GET is. -/
theorem test_unbanked_delete_waits : opReady (withOp run (opOf 0x14 [1])) 0x14 7 = none ∧
    (opReady (withOp run (opOf 0x01 [1])) 0x01 7).isSome = true := by decide +kernel
/-- Table 12.13: rank 1's LEAD is rank 0's again. -/
def rank1 : State :=
  { reg run (Pg.TEN 1) Off.TEN_TEN_CFG 0x51 with
    pwr := { run.pwr with straps := 1 }, acd := { pair := .paired, twinMap := [0, 0x82] } }
theorem test_rank1_governed : (governed rank1 1).leadRank 1 = 0 ∧ (governed rank1 1).bit Pg.ACD Off.IRQ_FLAG 10 = true := by decide +kernel

end Sys2Proof.Tests
end

section
/-! Proofs of the scope chapter's statements: what an access to a reserved page does (R6, R68). -/

namespace Sys2Proof.Machine

/-! ## The register commands and what the end of a command keeps -/

theorem exec_registerWrite (r : Req) (a : Nat) (w : Word) (s : State) :
    exec (.registerWrite r a w) s = done (regWriteAcc s r a w) := rfl

theorem exec_counterRead (r : Req) (a : Nat) (s : State) : exec (.counterRead r a) s = done (regReadAcc s r a) := rfl

/-- The end of a command answers no path again. -/
@[simp] theorem lastAnswer_finish (s : State) (p : Path) : lastAnswer (finish s) p = lastAnswer s p := by
  simp only [lastAnswer, (settled_finish s).results]

/-! ## Accesses to a reserved page (R6) -/

/-- FT_CMD stands on a page of its own: no table entry reaches it by a reserved page. -/
theorem ne_time_of_reserved {page : Nat} (hb : blockOf page = none) : page ≠ Pg.TIME := by
  rintro rfl
  exact absurd hb (by decide)

section
variable {s : State} {r : Req} {page off : Nat} (hp : page < 4096) (ho : off < 4096) (h4 : off % 4 = 0)
  (h : pathServed s r.path = true) (hc : pathCode s r page = 0) (hb : blockOf page = none)
include hp ho h4 h hc hb

theorem regWriteAcc_reserved (w : Word) : regWriteAcc s r (addr page off) w = noPage s r page off false := by
  have hf : isFtCmd (addr page off) = false := isFtCmd_addr hp ho h4 (.inl (ne_time_of_reserved hb))
  rw [regWriteAcc_judged w h (.inr hf)]
  simp [writeJudged, pageOf_addr hp ho, offOf_addr ho h4, hc, hb]

theorem regReadAcc_reserved : regReadAcc s r (addr page off) = noPage s r page off true := by
  simp [regReadAcc, pageOf_addr hp ho, offOf_addr ho h4, h, hc, hb]

end

/-- An access to a reserved page is counted and recorded in SYS with flag NO_PAGE raised, and answered; the flag's
deliveries are all that follows. -/
theorem delivered_noPage (s : State) (r : Req) (page off : Nat) (read : Bool) :
    Delivered (answerAcc (raise (lastReject (bump s Pg.SYS 0x060) page off (accRecord s r off 0x84 read)) Pg.SYS 2) r.path 0x84 0)
      (noPage s r page off read) :=
  (delivered_setFlags _ Pg.SYS 2).answerAcc r.path 0x84 0

theorem lastAnswer_noPage (s : State) (r : Req) (page off : Nat) (read : Bool) :
    lastAnswer (noPage s r page off read) r.path = { code := 0x84, value := 0 } := lastAnswer_answerAcc _ _ _ _

/-- Settles O9: a write and a read of a reserved page are both `noPage`, whose deliveries the end of the command gathers,
and whose answer it keeps. -/
theorem reservedPage : Obligations.ReservedPage := by
  intro s r page off w hp ho h4 h hc hb
  have hw := exec_registerWrite r (addr page off) w s
  have hr := exec_counterRead r (addr page off) s
  rw [regWriteAcc_reserved hp ho h4 h hc hb] at hw
  rw [regReadAcc_reserved hp ho h4 h hc hb] at hr
  refine ⟨⟨_, hw, ?_⟩, ⟨_, hr, ?_⟩, ⟨_, hr, ?_⟩⟩
  · exact settled_of_delivered (delivered_noPage s r page off false)
  · exact settled_of_delivered (delivered_noPage s r page off true)
  · simp [lastAnswer_noPage]

end Sys2Proof.Machine
end

section
/-! Proofs of the clock chapter's statements: a write of FT_ADDEND is judged by the range of R27 alone, and stored as written. -/

namespace Sys2Proof.Machine

/-! ## A write whose value a page refuses (Table 3.11, step 8) -/

/-- An admitted write whose value is refused is rejected with the value's code; SEC, whose nonces a refused write may spend,
is left out. -/
theorem writeJudged_valueRefused {s : State} {r : Req} {page off : Nat} {w : Word} {b : Block} (hp : page < 4096)
    (ho : off < 4096) (h4 : off % 4 = 0) (hc : pathCode s r page = 0) (hb : blockOf page = some b) (hsec : b ≠ .sec)
    (ha : admitWrite s r b (page - blockPage b) page off w = 0)
    (hv : valueCode s r b (page - blockPage b) page off w ≠ 0) :
    writeJudged s r (addr page off) w =
      rejectAcc s r page off (valueCode s r b (page - blockPage b) page off w) false := by
  unfold writeJudged
  simp [pageOf_addr hp ho, offOf_addr ho h4, hc, hb, hsec, ha, hv]

/-- A write whose mask covers the whole register leaves nothing of the old word. -/
theorem merge_allOnes {m : Word} (h : m = BitVec.allOnes 32) (old w : Word) : (old &&& ~~~ m) ||| (w &&& m) = w := by
  rw [h, BitVec.not_allOnes, BitVec.and_zero, BitVec.zero_or, BitVec.and_allOnes]

/-! ## FT_ADDEND (R27) -/

/-- FT_ADDEND's row: the whole register is one RW field. -/
def addendRow : RegRow := ⟨"FT_ADDEND", 0x108, 1, 4, [.f "-" 31 0 .rw 0]⟩

theorem rowOf_addend : rowOf .time 0 Off.TIME_FT_ADDEND = some (addendRow, 0) := rfl

theorem writeMask_addendRow : writeMask addendRow = BitVec.allOnes 32 := by decide

theorem accMask_rw_addendRow : accMask .rw addendRow = BitVec.allOnes 32 := by decide

theorem timeBad_addend (w : Word) :
    timeBad Off.TIME_FT_ADDEND w = true ↔ w.toInt < -4294967 ∨ 4294967 < w.toInt := by
  have hoff : Off.TIME_FT_ADDEND ≠ Off.TIME_FT_CMD := by decide
  rw [timeBad, if_neg hoff, if_pos rfl, decide_eq_true_iff]
  exact or_comm

/-- The range of R27 is all that step 8 asks of FT_ADDEND: the row itself states no range. -/
theorem valueCode_addend (s : State) (r : Req) (w : Word) :
    valueCode s r .time 0 Pg.TIME Off.TIME_FT_ADDEND w = if timeBad Off.TIME_FT_ADDEND w then 0x83 else 0 := by
  have howner : Off.TIME_FT_ADDEND ≠ Off.PAGE_OWNER := by decide
  have hctrl : Off.TIME_FT_ADDEND ≠ Off.PAGE_CTRL := by decide
  have hfields : fieldsInRange addendRow w = true := rfl
  cases hbad : timeBad Off.TIME_FT_ADDEND w <;>
    simp [valueCode, howner, hctrl, rowOf_addend, merge_allOnes writeMask_addendRow, pageCheck, hfields, hbad]

theorem storedValue_addend (s : State) (r : Req) (w : Word) :
    storedValue s r .time Pg.TIME Off.TIME_FT_ADDEND addendRow w = w := by
  have hpage : Pg.TIME ≠ Pg.GPIO := by decide
  simp [storedValue, openingWrite, hpage, merge_allOnes accMask_rw_addendRow]

section
variable {s : State} {r : Req} {w : Word} (h : pathServed s r.path = true) (hc : pathCode s r Pg.TIME = 0)
  (ha : admitWrite s r .time 0 Pg.TIME Off.TIME_FT_ADDEND w = 0)
include h hc ha

theorem regWriteAcc_addend_refused (hbad : timeBad Off.TIME_FT_ADDEND w = true) :
    regWriteAcc s r (addr Pg.TIME Off.TIME_FT_ADDEND) w = rejectAcc s r Pg.TIME Off.TIME_FT_ADDEND 0x83 false := by
  have hv : valueCode s r .time 0 Pg.TIME Off.TIME_FT_ADDEND w = 0x83 := by rw [valueCode_addend, if_pos hbad]
  have hne : valueCode s r .time 0 Pg.TIME Off.TIME_FT_ADDEND w ≠ 0 := by
    rw [hv]
    decide
  have hf : isFtCmd (addr Pg.TIME Off.TIME_FT_ADDEND) = false := by decide
  calc regWriteAcc s r (addr Pg.TIME Off.TIME_FT_ADDEND) w
      = writeJudged s r (addr Pg.TIME Off.TIME_FT_ADDEND) w := regWriteAcc_judged w h (.inr hf)
    _ = rejectAcc s r Pg.TIME Off.TIME_FT_ADDEND (valueCode s r .time 0 Pg.TIME Off.TIME_FT_ADDEND w) false :=
        writeJudged_valueRefused (b := .time) (by decide) (by decide) (by decide) hc (by decide) (by decide) ha hne
    _ = rejectAcc s r Pg.TIME Off.TIME_FT_ADDEND 0x83 false := by rw [hv]

theorem served_addend (hgood : timeBad Off.TIME_FT_ADDEND w = false) : Served s r Pg.TIME Off.TIME_FT_ADDEND w := by
  have hv : valueCode s r .time 0 Pg.TIME Off.TIME_FT_ADDEND w = 0 := by simp [valueCode_addend, hgood]
  exact ⟨h, hc, .time, by decide, ha, hv⟩

theorem regWriteAcc_addend_stored (hgood : timeBad Off.TIME_FT_ADDEND w = false) :
    regWriteAcc s r (addr Pg.TIME Off.TIME_FT_ADDEND) w = served (setReg s Pg.TIME Off.TIME_FT_ADDEND w) r 0 := by
  have hoff : Off.TIME_FT_ADDEND ≠ Off.TIME_FT_CMD := by decide
  rw [regWriteAcc_row (b := .time) (by decide) (by decide) (by decide) (by decide) (served_addend h hc ha hgood)
    (by decide) rowOf_addend (.inr (.inr hoff)), storedValue_addend]
  simp [blockWritten, hoff]

end

/-- Settles O20: the two cases are the two answers of `timeBad`, and a register command does what `regWriteAcc` says. -/
theorem fleetTimeRange : Obligations.FleetTimeRange := by
  intro s r w h hc ha
  have hexec := exec_registerWrite r (addr Pg.TIME Off.TIME_FT_ADDEND) w s
  refine ⟨fun hout => does_done ?_, fun hlo hhi => does_done ?_⟩
  · rw [hexec, regWriteAcc_addend_refused h hc ha ((timeBad_addend w).mpr hout)]
  · have hgood : timeBad Off.TIME_FT_ADDEND w = false := by
      rw [← Bool.not_eq_true, timeBad_addend]
      omega
    rw [hexec, regWriteAcc_addend_stored h hc ha hgood]

end Sys2Proof.Machine
end

section
/-! Proofs of the register pages chapter's statements: an access that PATH_EN switches off, by its path or by its identity, is
rejected with PATH_OFF (R63), whatever page it names (log 32). -/

namespace Sys2Proof.Machine

/-! ## What PATH_EN switches off (R63, step 1 of Table 3.11) -/

section
variable {s : State} {r : Req} (page : Nat)

theorem pathCode_of_lmf_any_off (hr : r.path = .lmf) (ht : r.tenant % 64 ≠ 0)
    (hbit : s.bit Pg.SYS Off.SYS_PATH_EN 2 = false) : pathCode s r page = 0x89 := by
  have hid : reqTenant r ≠ 0 := by simpa [reqTenant, hr] using ht
  simp [pathCode, hr, hid, hbit]

theorem pathCode_of_lmf_reg_off (hr : r.path = .lmf) (hbit : s.bit Pg.SYS Off.SYS_PATH_EN 1 = false) :
    pathCode s r page = 0x89 := by
  simp [pathCode, hr, hbit]

theorem pathCode_of_fratra_reg_off (hr : r.path = .fratra) (hbit : s.bit Pg.SYS Off.SYS_PATH_EN 0 = false) :
    pathCode s r page = 0x89 := by
  simp [pathCode, hr, hbit]

theorem pathCode_hkp_or_tat (hr : r.path = .hkp ∨ r.path = .tat) : pathCode s r page = 0 := by
  rcases hr with hr | hr <;> simp [pathCode, hr]

end

/-! ## The register commands of an access that step 1 refuses -/

section
variable {s : State} {r : Req} {page off code : Nat} (hp : page < 4096) (ho : off < 4096) (h4 : off % 4 = 0)
  (h : pathServed s r.path = true) (hcode : pathCode s r page = code) (hne : code ≠ 0)
include hp ho h4 h hcode hne

theorem does_registerWrite_pathRefused (w : Word) :
    Does (.registerWrite r (addr page off) w) s (rejectAcc s r page off code false) := by
  subst hcode
  apply does_done
  rw [exec_registerWrite, regWriteAcc_pathOff hp ho h4 h hne]

theorem does_counterRead_pathRefused :
    Does (.counterRead r (addr page off)) s (rejectAcc s r page off code true) := by
  subst hcode
  apply does_done
  rw [exec_counterRead, regReadAcc_pathOff hp ho h4 h hne]

end

/-- Settles O8: each way to be switched off makes step 1 of Table 3.11 answer PATH_OFF, and step 1 stands before all that a
write and a read do; on HKP and TAT it answers 0. -/
theorem pathOff : Obligations.PathOff := by
  intro s r page off w hp ho h4 h
  refine ⟨fun hoff => ?_, pathCode_hkp_or_tat page⟩
  have hcode : pathCode s r page = 0x89 := by
    rcases hoff with ⟨hr, ht, hbit⟩ | ⟨hr, hbit⟩ | ⟨hr, hbit⟩
    · exact pathCode_of_lmf_any_off page hr ht hbit
    · exact pathCode_of_lmf_reg_off page hr hbit
    · exact pathCode_of_fratra_reg_off page hr hbit
  have hne : 0x89 ≠ 0 := by decide
  exact ⟨does_registerWrite_pathRefused hp ho h4 h hcode hne w, does_counterRead_pathRefused hp ho h4 h hcode hne⟩

end Sys2Proof.Machine
end

section
/-! Proofs of the power chapter's statements: what starts a settle, turns it into a warm one, or is refused, and that a warm
settle ends in the hold of a warm reset (R112). -/

namespace Sys2Proof.Machine

/-! ## Writes of a command register -/

/-- A write whose mask covers nothing of the register leaves the old word. -/
theorem merge_zero {m : Word} (h : m = 0#32) (old w : Word) : (old &&& ~~~ m) ||| (w &&& m) = old := by
  rw [h, BitVec.not_zero, BitVec.and_allOnes, BitVec.and_zero, BitVec.or_zero]

/-- A register without RW fields stores nothing of what is written to it. -/
theorem storedValue_of_noRw {s : State} {r : Req} {b : Block} {page off : Nat} {row : RegRow} {w : Word} (hsec : b ≠ .sec)
    (hpage : page ≠ Pg.GPIO) (hrow : accMask .rw row = 0) : storedValue s r b page off row w = s.reg page off := by
  simp [storedValue, openingWrite, hsec, hpage, merge_zero hrow]

/-- A command register of a block: one of its own registers, without RW fields, on a page that judges and stores no value of
it in a way of its own. -/
structure CommandRegister (b : Block) (page off : Nat) (row : RegRow) : Prop where
  page_lt : page < 4096
  off_lt : off < 4096
  aligned : off % 4 = 0
  own : 0x100 ≤ off
  block : blockOf page = some b
  not_sec : b ≠ .sec
  not_gpio : page ≠ Pg.GPIO
  not_time : page ≠ Pg.TIME
  rowOf_eq : rowOf b (page - blockPage b) off = some (row, 0)
  noRw : accMask .rw row = 0

/-- A served write of a command register does what its block makes of it, and the register shows nothing. -/
theorem CommandRegister.does_write {b : Block} {page off : Nat} {row : RegRow} (hreg : CommandRegister b page off row)
    {c : Instr} {s u : State} {r : Req} {w : Word} (hexec : exec c s = done (regWriteAcc s r (addr page off) w))
    (h : Served s r page off w) (hkept : u.reg page off = s.reg page off)
    (hwritten : blockWritten s (setReg s page off (s.reg page off)) r b (page - blockPage b) off (s.reg page off)
      ((s.reg page off &&& ~~~ writeMask row) ||| (w &&& writeMask row)) = setReg u page off (s.reg page off)) :
    Does c s (served u r 0) := by
  rw [regWriteAcc_row hreg.page_lt hreg.off_lt hreg.aligned hreg.own h hreg.block hreg.rowOf_eq (.inr (.inl hreg.not_time)),
    storedValue_of_noRw hreg.not_sec hreg.not_gpio hreg.noRw, hwritten, ← hkept] at hexec
  exact ⟨_, hexec, settled_of_delivered ((within_setReg_same (Within.refl u) page off).served r 0)⟩

/-! ## PWR_CMD PARK -/

theorem exec_park (r : Req) (w : Word) (s : State) :
    exec (.park r w) s = done (regWriteAcc s r (addr Pg.PWR Off.PWR_PWR_CMD) w) := rfl

/-- PWR_CMD's row: PARK alone, write-only. -/
def pwrCmdRow : RegRow := ⟨"PWR_CMD", 0x104, 1, 4, [.f "PARK" 0 0 .wo 0]⟩

theorem rowOf_pwrCmd : rowOf .pwr 0 Off.PWR_PWR_CMD = some (pwrCmdRow, 0) := rfl

theorem commandRegister_pwrCmd : CommandRegister .pwr Pg.PWR Off.PWR_PWR_CMD pwrCmdRow :=
  ⟨by decide, by decide, by decide, by decide, by decide, by decide, by decide, by decide, rowOf_pwrCmd, by decide⟩

theorem bit_merge_pwrCmd (old w : Word) :
    ((old &&& ~~~ writeMask pwrCmdRow) ||| (w &&& writeMask pwrCmdRow)).bit 0 = w.bit 0 := by
  have hmask : (writeMask pwrCmdRow).bit 0 = true := by decide
  rw [bit_merge, if_pos hmask]

/-- What PARK starts: a park settle that PWR_CMD asked for. -/
def parkStarted (s : State) : State := onSettle (startSettle false s) fun t => { t with byPwr := true }

theorem blockWritten_park {s t : State} {r : Req} {old v : Word} (hv : v.bit 0 = true) :
    blockWritten s t r .pwr 0 Off.PWR_PWR_CMD old v = parkStarted t := by
  simp only [blockWritten, hv, and_self, if_true, parkStarted]

theorem does_park_served {s : State} {r : Req} {w : Word} (h : Served s r Pg.PWR Off.PWR_PWR_CMD w)
    (hw : w.bit 0 = true) : Does (.park r w) s (served (parkStarted s) r 0) :=
  commandRegister_pwrCmd.does_write (exec_park r w s) h rfl (blockWritten_park ((bit_merge_pwrCmd _ w).trans hw))

/-- PARK's own check is all that step 8 asks of PWR_CMD: the row itself states no range. -/
theorem valueCode_park (s : State) (r : Req) (w : Word) :
    valueCode s r .pwr 0 Pg.PWR Off.PWR_PWR_CMD w = parkCheck s w := by
  have howner : Off.PWR_PWR_CMD ≠ Off.PAGE_OWNER := by decide
  have hctrl : Off.PWR_PWR_CMD ≠ Off.PAGE_CTRL := by decide
  have hfields : fieldsInRange pwrCmdRow w = true := rfl
  have hcheck (old : Word) :
      parkCheck s ((old &&& ~~~ writeMask pwrCmdRow) ||| (w &&& writeMask pwrCmdRow)) = parkCheck s w := by
    simp only [parkCheck, bit_merge_pwrCmd]
  simp only [valueCode, howner, hctrl, if_false, rowOf_pwrCmd, pageCheck, if_true, hcheck, hfields, Bool.or_true]
  split
  · rfl
  · rename_i hzero
    exact (Decidable.not_not.mp hzero).symm

section
variable {s : State} {w : Word} (hw : w.bit 0 = true)
include hw

theorem parkCheck_outside_run (h : s.pwr.state ≠ .run) : parkCheck s w = 0x01 := by
  simp [parkCheck, hw, State.inRun, h]

theorem parkCheck_settling (hrun : s.pwr.state = .run) (h : s.pwr.settle.isSome = true) : parkCheck s w = 0x02 := by
  simp [parkCheck, hw, State.inRun, hrun, h]

theorem parkCheck_taken (hrun : s.pwr.state = .run) (h : s.pwr.settle = none) : parkCheck s w = 0 := by
  simp [parkCheck, hw, State.inRun, hrun, h]

end

section
variable {s : State} {r : Req} {w : Word} (h : pathServed s r.path = true) (hc : pathCode s r Pg.PWR = 0)
  (ha : admitWrite s r .pwr 0 Pg.PWR Off.PWR_PWR_CMD w = 0)
include h hc ha

theorem does_park_refused {code : Nat} (hcode : parkCheck s w = code) (hne : code ≠ 0) :
    Does (.park r w) s (rejectAcc s r Pg.PWR Off.PWR_PWR_CMD code false) := by
  have hv : valueCode s r .pwr 0 Pg.PWR Off.PWR_PWR_CMD w = code := by rw [valueCode_park, hcode]
  have hvne : valueCode s r .pwr 0 Pg.PWR Off.PWR_PWR_CMD w ≠ 0 := by
    rw [hv]
    exact hne
  have hjudged : writeJudged s r (addr Pg.PWR Off.PWR_PWR_CMD) w =
      rejectAcc s r Pg.PWR Off.PWR_PWR_CMD (valueCode s r .pwr 0 Pg.PWR Off.PWR_PWR_CMD w) false :=
    writeJudged_valueRefused (b := .pwr) (by decide) (by decide) (by decide) hc (by decide) (by decide) ha hvne
  apply does_done
  rw [exec_park, regWriteAcc_judged w h (.inr (by decide)), hjudged, hv]

theorem served_park (hcode : parkCheck s w = 0) : Served s r Pg.PWR Off.PWR_PWR_CMD w :=
  ⟨h, hc, .pwr, by decide, ha, (valueCode_park s r w).trans hcode⟩

end

/-! ## Warm-reset causes in RUN -/

section
variable {s : State} {bit : BitVec 7} (hrun : s.pwr.state = .run)
include hrun

theorem warmCause_of_noSettle (h : s.pwr.settle = none) :
    warmCause bit s = startSettle true (onPwr s fun p => { p with cause := p.cause ||| bit }) := by
  simp [warmCause, hrun, h]

theorem warmCause_of_parkSettle {x : Settle} (h : s.pwr.settle = some x) (hx : x.warm = false) : warmCause bit s =
    onPwr s fun p => { p with cause := p.cause ||| bit, settle := some { x with warm := true } } := by
  simp [warmCause, hrun, h, hx]

theorem warmCause_of_warmSettle {x : Settle} (h : s.pwr.settle = some x) (hx : x.warm = true) : warmCause bit s = s := by
  simp [warmCause, hrun, h, hx]

end

/-- What a warm-reset cause leaves of `s` where it starts or turns a settle: the settle, and the cause for RST_CAUSE. -/
def causeTaken (s : State) (bit : BitVec 7) (x : Settle) (hold : Bool) : State :=
  { s with fratra := { s.fratra with hold := hold }
           pwr := { s.pwr with cause := s.pwr.cause ||| bit, settle := some x } }

/-- `u` is what R112 has a warm-reset cause do, by the settle that runs; `byRst` tells that RST_CMD asked for it. -/
def Warmed (s : State) (bit : BitVec 7) (byRst : Bool) (u : State) : Prop :=
  (s.pwr.settle = none → u = causeTaken s bit { warm := true, startTick := s.hub.tick, byRst := byRst } true) ∧
  (∀ x, s.pwr.settle = some x → x.warm = false →
    u = causeTaken s bit { x with warm := true, byRst := x.byRst || byRst } s.fratra.hold) ∧
  (∀ x, s.pwr.settle = some x → x.warm = true → u = s)

/-- A settle that a change leaves as it was leaves the machine as it was. -/
theorem onSettle_of_fixed {s : State} {x : Settle} {f : Settle → Settle} (h : s.pwr.settle = some x) (hf : f x = x) :
    onSettle s f = s := by
  have hmap : s.pwr.settle.map f = s.pwr.settle := by rw [h, Option.map_some, hf]
  exact congrArg (fun t => onPwr s fun p => { p with settle := t }) hmap

/-- An update that touches neither the settle, the causes, the tick nor the hold of requests commutes with a cause. -/
theorem Warmed.map {s u : State} {bit : BitVec 7} {byRst : Bool} {f : State → State} (h : Warmed s bit byRst u)
    (hf : ∀ x hold, f (causeTaken s bit x hold) = causeTaken (f s) bit x hold)
    (hsettle : (f s).pwr.settle = s.pwr.settle) (htick : (f s).hub.tick = s.hub.tick)
    (hhold : (f s).fratra.hold = s.fratra.hold) : Warmed (f s) bit byRst (f u) := by
  obtain ⟨hnone, hpark, hwarm⟩ := h
  rw [Warmed, hsettle, htick, hhold]
  refine ⟨fun hs => ?_, fun x hs hx => ?_, fun x hs hx => ?_⟩
  · rw [hnone hs, hf]
  · rw [hpark x hs hx, hf]
  · rw [hwarm x hs hx]

theorem Warmed.setReg {s u : State} {bit : BitVec 7} {byRst : Bool} (h : Warmed s bit byRst u) (page off : Nat) (w : Word) :
    Warmed (Machine.setReg s page off w) bit byRst (Machine.setReg u page off w) :=
  h.map (f := fun t => Machine.setReg t page off w) (fun _ _ => rfl) rfl rfl rfl

theorem Warmed.resetN {s u : State} {bit : BitVec 7} {byRst : Bool} (h : Warmed s bit byRst u) :
    Warmed (onPwr s fun p => { p with resetN := true }) bit byRst (onPwr u fun p => { p with resetN := true }) :=
  h.map (f := fun t => onPwr t fun p => { p with resetN := true }) (fun _ _ => rfl) rfl rfl rfl

theorem Warmed.regs {s u : State} {bit : BitVec 7} {byRst : Bool} (h : Warmed s bit byRst u) : u.regs = s.regs := by
  obtain ⟨hnone, hpark, hwarm⟩ := h
  match hs : s.pwr.settle with
  | none => rw [hnone hs]; rfl
  | some x =>
    cases hx : x.warm with
    | false => rw [hpark x hs hx]; rfl
    | true => rw [hwarm x hs hx]

/-- RST_CMD WARM: the cause, marked as asked for by RST_CMD unless a warm settle ran already. -/
def warmAsked (s : State) : State :=
  onSettle (warmCause 0x10 s) fun t => { t with byRst := t.byRst || !(s.pwr.settle.map Settle.warm).getD false }

section
variable {s u : State} (hrun : s.pwr.state = .run)
include hrun

theorem warmCause_of_warmed {bit : BitVec 7} (h : Warmed s bit false u) : warmCause bit s = u := by
  obtain ⟨hnone, hpark, hwarm⟩ := h
  match hs : s.pwr.settle with
  | none =>
    rw [warmCause_of_noSettle hrun hs, hnone hs]
    rfl
  | some x =>
    cases hx : x.warm with
    | false =>
      rw [warmCause_of_parkSettle hrun hs hx, hpark x hs hx, Bool.or_false]
      rfl
    | true => rw [warmCause_of_warmSettle hrun hs hx, hwarm x hs hx]

theorem warmAsked_of_warmed (h : Warmed s 0x10 true u) : warmAsked s = u := by
  obtain ⟨hnone, hpark, hwarm⟩ := h
  unfold warmAsked
  match hs : s.pwr.settle with
  | none =>
    rw [warmCause_of_noSettle hrun hs, hnone hs]
    rfl
  | some x =>
    cases hx : x.warm with
    | false =>
      rw [warmCause_of_parkSettle hrun hs hx, hpark x hs hx]
      simp [onSettle, onPwr, causeTaken, hx]
    | true =>
      have hkept : (x.byRst || !x.warm) = x.byRst := by simp [hx]
      rw [warmCause_of_warmSettle hrun hs hx, hwarm x hs hx]
      exact onSettle_of_fixed hs (congrArg (fun b => { x with byRst := b }) hkept)

end

/-! ## RST_CMD WARM, the watchdog, RESET_N -/

theorem exec_warm (r : Req) (w : Word) (s : State) :
    exec (.warm r w) s = done (regWriteAcc s r (addr Pg.RST Off.RST_RST_CMD) w) := rfl

theorem exec_wdtExpire (s : State) : exec .wdtExpire s = done (doWdtExpire s) := rfl

theorem exec_resetNAssert (s : State) : exec .resetNAssert s = done (doResetAssert s) := rfl

/-- RST_CMD's row: WARM and WDT_KICK, write-only. -/
def rstCmdRow : RegRow := ⟨"RST_CMD", 0x100, 1, 4, [.f "WARM" 0 0 .wo 0, .f "WDT_KICK" 8 8 .wo 0]⟩

theorem rowOf_rstCmd : rowOf .rst 0 Off.RST_RST_CMD = some (rstCmdRow, 0) := rfl

theorem commandRegister_rstCmd : CommandRegister .rst Pg.RST Off.RST_RST_CMD rstCmdRow :=
  ⟨by decide, by decide, by decide, by decide, by decide, by decide, by decide, by decide, rowOf_rstCmd, by decide⟩

theorem bit_merge_rstCmd (old w : Word) {n : Nat} (hn : n = 0 ∨ n = 8) :
    ((old &&& ~~~ writeMask rstCmdRow) ||| (w &&& writeMask rstCmdRow)).bit n = w.bit n := by
  have hmask : (writeMask rstCmdRow).bit n = true := by rcases hn with rfl | rfl <;> decide
  rw [bit_merge, if_pos hmask]

theorem blockWritten_warm {s t : State} {r : Req} {old v : Word} (hwarm : v.bit 0 = true) (hkick : v.bit 8 = false) :
    blockWritten s t r .rst 0 Off.RST_RST_CMD old v = warmAsked t := by
  simp only [blockWritten, hwarm, hkick, if_true, Bool.false_eq_true, if_false, warmAsked]

section
variable {s u : State} (hrun : s.pwr.state = .run)
include hrun

theorem does_warm_served {r : Req} {w : Word} (h : Served s r Pg.RST Off.RST_RST_CMD w) (hwarm : w.bit 0 = true)
    (hkick : w.bit 8 = false) (hu : Warmed s 0x10 true u) : Does (.warm r w) s (served u r 0) := by
  have hkept : u.reg Pg.RST Off.RST_RST_CMD = s.reg Pg.RST Off.RST_RST_CMD := by rw [State.reg, hu.regs, State.reg]
  have hasked := warmAsked_of_warmed (s := setReg s Pg.RST Off.RST_RST_CMD (s.reg Pg.RST Off.RST_RST_CMD)) hrun
    (hu.setReg Pg.RST Off.RST_RST_CMD (s.reg Pg.RST Off.RST_RST_CMD))
  have hmerge (n : Nat) (hn : n = 0 ∨ n = 8) := bit_merge_rstCmd (s.reg Pg.RST Off.RST_RST_CMD) w hn
  exact commandRegister_rstCmd.does_write (exec_warm r w s) h hkept
    ((blockWritten_warm ((hmerge 0 (.inl rfl)).trans hwarm) ((hmerge 8 (.inr rfl)).trans hkick)).trans hasked)

theorem does_wdtExpire (hwd : s.pwr.watchdog = true) (hu : Warmed s 0x20 false u) : Does .wdtExpire s u := by
  apply does_done
  rw [exec_wdtExpire, doWdtExpire, if_pos hwd, warmCause_of_warmed hrun hu]

theorem does_resetNAssert (h : s.pwr.resetN = false) (hu : Warmed s 0x08 false u) :
    Does .resetNAssert s (onPwr u fun p => { p with resetN := true }) := by
  have hcause := warmCause_of_warmed (s := onPwr s fun p => { p with resetN := true }) hrun hu.resetN
  apply does_done
  rw [exec_resetNAssert, ← hcause]
  simp [doResetAssert, h, hrun]

end

/-! ## The end of a warm settle -/

theorem setFlag_pwr (s : State) (page n : Nat) : (setFlag s page n).pwr = s.pwr :=
  (delivered_setFlags s page (BitVec.ofNat 32 (2 ^ n))).pwr

theorem keyHoldCheck_pwr (s : State) (n : Nat) : (keyHoldCheck s n).pwr = s.pwr := by
  unfold keyHoldCheck
  split <;> rfl

theorem slotChanged_pwr (s : State) (slot : Nat) : (slotChanged s slot).pwr = s.pwr := by
  unfold slotChanged
  split
  · exact keyHoldCheck_pwr s slot
  · rfl

theorem keyEffect_pwr (s : State) (op : KeyOp) : (keyEffect s op).pwr = s.pwr := by
  cases op with
  | load slot key => exact slotChanged_pwr _ slot
  | generate slot => exact slotChanged_pwr _ slot
  | zeroize slot => exact slotChanged_pwr _ slot
  | check slot => rfl
  | revoke key blow => cases blow <;> rfl

theorem keyFinish_pwr (s : State) : (keyFinish s).pwr = s.pwr := by
  unfold keyFinish
  split
  · rfl
  · exact (setFlag_pwr _ _ _).trans (keyEffect_pwr _ _)

theorem endUsbWait_pwr (s : State) : (endUsbWait s).pwr = { s.pwr with usbWait := false } := by
  unfold endUsbWait
  split
  · rfl
  · rename_i h
    exact congrArg (fun b => { s.pwr with usbWait := b }) (Bool.eq_false_iff.mpr h)

theorem usbDetach_pwr (s : State) : (usbDetach s).pwr = s.pwr := by
  unfold usbDetach
  dsimp only
  split
  · exact setFlag_pwr _ _ _
  · rfl

theorem evfPowerOff_pwr (s : State) : (evfPowerOff s).pwr = s.pwr :=
  List.foldlRecOn (motive := fun t : State => t.pwr = s.pwr) _ _ rfl fun _ h _ _ => h

theorem coreClear_pwr (mask : Nat → Word) (s : State) : (coreClear mask s).pwr =
    { s.pwr with image := false, tried := 0, usbWait := false, discovered := false, watchdog := false, wdtFrom := 0
                 settle := none } := by
  rw [← evfPowerOff_pwr s]
  rfl

/-- A warm reset restarts BOOT behind its hold and ends what ran; how the store was last shut down stays. -/
theorem warmHold_pwr (s : State) : (warmHold s).pwr =
    { s.pwr with state := .boot, wait := .hold, image := false, tried := 0, usbWait := false, discovered := false
                 watchdog := false, wdtFrom := 0, settle := none } := by
  simp only [warmHold, onPwr_pwr, onUsb_pwr, coreClear_pwr, usbDetach_pwr, endUsbWait_pwr, keyFinish_pwr]

theorem settleWork_lastDown (t : Settle) (s : State) : (settleWork t s).pwr.lastDown = .settle := rfl

theorem doSettleComplete_warm {s : State} {x : Settle} (slow : Bool) (h : s.pwr.settle = some x) (hd : x.drained = true)
    (hw : x.warm = true) : doSettleComplete slow s =
      warmHold (onPwr (settleWork x s) fun p => { p with slowOwed := p.slowOwed || slow }) := by
  simp [doSettleComplete, h, hd, hw]

/-- What a command leaves of the power state is what its meaning left. -/
theorem reaches_of_pwr {c : Instr} {s t : State} {P : PwrState → Prop} (h : exec c s = done t) (hp : P t.pwr) :
    Reaches c s fun u => P u.pwr :=
  ⟨finish t, h, (congrArg P (settled_finish t).pwr).mpr hp⟩

/-- The part of the power state in which a warm settle ends. -/
def WarmReset (p : PwrState) : Prop := p.state = .boot ∧ p.wait = .hold ∧ p.lastDown = .settle ∧ p.settle = none

theorem reaches_warmReset {s : State} {x : Settle} (slow : Bool) (h : s.pwr.settle = some x) (hd : x.drained = true)
    (hw : x.warm = true) : Reaches (.settleComplete slow) s fun t => WarmReset t.pwr := by
  apply reaches_of_pwr (t := doSettleComplete slow s) rfl
  rw [doSettleComplete_warm slow h hd hw, warmHold_pwr]
  exact ⟨rfl, rfl, settleWork_lastDown x s, rfl⟩

/-- Settles O27: PARK's write is judged by `parkCheck` and starts a settle; the three causes are one `warmCause`, whose three
outcomes in RUN `Warmed` names; a drained warm settle ends in `warmHold`. -/
theorem settleStarts : Obligations.SettleStarts := by
  intro s settling causes warmed
  refine ⟨fun r w h hw => does_park_served h hw,
    fun r w h hc ha hw => ⟨fun hstate => ?_, fun hrun hsome => ?_, fun hrun hnone => ?_⟩,
    fun hrun u => ⟨fun r w h hwarm hkick hu => does_warm_served hrun h hwarm hkick hu,
      fun hwd hu => does_wdtExpire hrun hwd hu, fun hreset hu => does_resetNAssert hrun hreset hu⟩,
    fun x slow h hd hw => reaches_warmReset slow h hd hw⟩
  · exact does_park_refused h hc ha (parkCheck_outside_run hw hstate) (by decide)
  · exact does_park_refused h hc ha (parkCheck_settling hw hrun hsome) (by decide)
  · exact served_park h hc ha (parkCheck_taken hw hrun hnone)

end Sys2Proof.Machine
end
